-- ==== Sys2Proof/Word.lean ====
section
/-! DEFINITION. The word types of the QSE core (spec 00_scope.md rules R7, R9, R10): 32-bit register words, bytes
and two-bit symbols. -/

namespace Sys2Proof

/-- A host register word (00_scope.md R7: host register width 32). -/
abbrev Word := BitVec 32

/-- A byte of the image, of a payload or of a frame. -/
abbrev Byte := BitVec 8

/-- "a 2-bit unit of data carried per carrier cycle group" (00_scope.md R15). -/
abbrev Symbol := BitVec 2

end Sys2Proof
end

