-- ==== Sys2Proof/Syntax.lean ====
section
/-! DEFINITION. The program syntax of the QSE core: its thirteen commands (30_encoding.md R82, one constructor per row
of opcode_table.json) and the host accesses a program is made of (20_memory.md R61, R66; 30_encoding.md R87). -/

namespace Sys2Proof

/-- The commands of 30_encoding.md R82. The operands of `CRC` and `FRAME` (format A) are the registers `ARG0` and
`ARG1`, so those two carry none. -/
inductive Instr where
  /-- `NOP`, no operation (46_pacing.md R190). -/
  | nop
  /-- `SRESET`, session reset (46_pacing.md R191). -/
  | sreset
  /-- `CFGCHK`, validate the configuration (46_pacing.md R192). -/
  | cfgchk
  /-- `RUN`, start the pacing controller (46_pacing.md R193). -/
  | run
  /-- `PULL`, emit the next block of the run (46_pacing.md R194). -/
  | pull
  /-- `SCRLD`, load the key (41_scrambler.md R102). -/
  | scrld
  /-- `SCRB b`, scramble one byte (41_scrambler.md R103). -/
  | scrb (b : Byte)
  /-- `CRC`, checksum of an image range (42_framer.md R123). -/
  | crc
  /-- `FRAME`, frame one packet into the frame buffer (42_framer.md R124). -/
  | frame
  /-- `MAPB b`, map one byte to its four symbols (43_mapper.md R141). -/
  | mapb (b : Byte)
  /-- `MODS y`, modulate one symbol (44_modulator.md R159). -/
  | mods (y : Symbol)
  /-- `MODF`, map and modulate the frame held (44_modulator.md R160). -/
  | modf
  /-- `BLANK us`, emit a silence block of `us` microseconds (45_silence.md R182); `us` is a count, and WellFormed
  bounds it by its 24-bit field. -/
  | blank (us : Nat)
deriving DecidableEq, Repr

/-- The width of a host access. Only `w32` is performed (20_memory.md R66). -/
inductive Width where
  | w8
  | w16
  | w32
  | w64
deriving DecidableEq, Repr

/-- What the outside world does to the core, one event at a time (00_scope.md R6, 20_memory.md R71). -/
inductive HostEvent where
  /-- A host read at a byte offset of the register window (10_state.md R24, R25). -/
  | read (width : Width) (offset : BitVec 12)
  /-- A host write of `value` at a byte offset of the register window. -/
  | write (width : Width) (offset : BitVec 12) (value : Word)
  /-- The platform's hardware reset (70_reset_and_hazards.md R270). The image memory and the frame buffer are
  "unspecified (any value)" after it: the event carries the bytes they then hold (log 2). -/
  | hardReset (image fb : List Host.Cell)
deriving DecidableEq, Repr

/-- A program is a list of host accesses (30_encoding.md R87). -/
abbrev Program := List HostEvent

end Sys2Proof
end

