-- ==== Sys2Proof/WellFormed.lean ====
section
/-! DEFINITION. Which commands have an encoding (30_encoding.md R81) and which host accesses are performed
(20_memory.md R66). -/

namespace Sys2Proof

/-- The D format holds a duration of 24 bits, `0 .. 16 777 215` microseconds (30_encoding.md R81); every other operand
is typed by its field. -/
def Instr.wellFormed : Instr → Bool
  | .blank us => decide (us < 2 ^ 24)
  | .nop | .sreset | .cfgchk | .run | .pull | .scrld | .crc | .frame | .modf => true
  | .scrb _ | .mapb _ | .mods _ => true

/-- "Every host access is a 32-bit access at an offset that is a multiple of 4" (20_memory.md R66). -/
def HostEvent.wellFormed : HostEvent → Bool
  | .read width offset => decide (width = .w32) && decide (offset.toNat % 4 = 0)
  | .write width offset _ => decide (width = .w32) && decide (offset.toNat % 4 = 0)
  | .hardReset _ _ => true

end Sys2Proof
end

