-- ==== Sys2Proof/Decode.lean ====
section
/-! DEFINITION. Decoding a command word (30_encoding.md R80 to R86), total and rejecting by name, then its inverse and
the host's view of the decoder. -/

namespace Sys2Proof

/-- Why a command word is illegal (30_encoding.md R84, R85): both cases raise `CmdErr(ILLEGAL_CMD)`. -/
inductive DecodeError where
  /-- `OPC` is not in the table of R82. -/
  | reservedOpcode
  /-- A reserved bit of `IMM` is set (R81). -/
  | reservedBits
deriving DecidableEq, Repr

/-- The operand layouts of 30_encoding.md R81. -/
inductive Format where
  | z
  | b
  | y
  | d
  | a
deriving DecidableEq, Repr

/-- `reservedmask(format)` of 30_encoding.md R84. -/
def Format.reservedMask : Format → BitVec 24
  | .z => 0xFFFFFF#24
  | .a => 0xFFFFFF#24
  | .b => 0xFFFF00#24
  | .y => 0xFFFFFC#24
  | .d => 0x000000#24

/-- One row of the opcode map: `OPC`, its format, and the command its immediate makes. -/
structure OpRow where
  opc : Byte
  format : Format
  build : BitVec 24 → Instr

/-- The opcode map (30_encoding.md R82). -/
def opcodeMap : List OpRow := [
  ⟨0x00#8, .z, fun _ => .nop⟩,
  ⟨0x01#8, .z, fun _ => .sreset⟩,
  ⟨0x02#8, .z, fun _ => .cfgchk⟩,
  ⟨0x03#8, .z, fun _ => .run⟩,
  ⟨0x04#8, .z, fun _ => .pull⟩,
  ⟨0x10#8, .z, fun _ => .scrld⟩,
  ⟨0x11#8, .b, fun imm => .scrb (imm.extractLsb' 0 8)⟩,
  ⟨0x20#8, .a, fun _ => .crc⟩,
  ⟨0x21#8, .a, fun _ => .frame⟩,
  ⟨0x30#8, .b, fun imm => .mapb (imm.extractLsb' 0 8)⟩,
  ⟨0x40#8, .y, fun imm => .mods (imm.extractLsb' 0 2)⟩,
  ⟨0x41#8, .z, fun _ => .modf⟩,
  ⟨0x50#8, .d, fun imm => .blank imm.toNat⟩]

/-- `OPC`, bits [31:24] of a command word (30_encoding.md R80). -/
def opcOf (w : Word) : Byte := w.extractLsb' 24 8

/-- `IMM`, bits [23:0] of a command word (30_encoding.md R80). -/
def immOf (w : Word) : BitVec 24 := w.extractLsb' 0 24

/-- "A decoder reads `OPC` first, and the format of `OPC` says which bits of `IMM` are operand and which must be zero"
(30_encoding.md R80); the order of the two checks is R84's. -/
def decode (w : Word) : Except DecodeError Instr :=
  match opcodeMap.find? (fun row => row.opc == opcOf w) with
  | none => .error .reservedOpcode
  | some row =>
    if immOf w &&& row.format.reservedMask = 0#24 then .ok (row.build (immOf w))
    else .error .reservedBits

/-- A command word from its two fields (30_encoding.md R80). -/
def commandWord (opc : Byte) (imm : BitVec 24) : Word := opc ++ imm

/-- The word of a well-formed command (30_encoding.md R82, R87). -/
def encode : Instr → Word
  | .nop => commandWord 0x00#8 0
  | .sreset => commandWord 0x01#8 0
  | .cfgchk => commandWord 0x02#8 0
  | .run => commandWord 0x03#8 0
  | .pull => commandWord 0x04#8 0
  | .scrld => commandWord 0x10#8 0
  | .scrb b => commandWord 0x11#8 (b.setWidth 24)
  | .crc => commandWord 0x20#8 0
  | .frame => commandWord 0x21#8 0
  | .mapb b => commandWord 0x30#8 (b.setWidth 24)
  | .mods y => commandWord 0x40#8 (y.setWidth 24)
  | .modf => commandWord 0x41#8 0
  | .blank us => commandWord 0x50#8 (BitVec.ofNat 24 us)

/-- The command word the table's bits stand for: `nbits` bits given, every bit above them 0 (a command is one 32-bit
word, 30_encoding.md R86). -/
def tableWord (nbits w : Nat) : Word := BitVec.ofNat 32 (w % 2 ^ nbits)

/-- What the decoder reads from a row's bits. A word of more than 32 bits is no command (30_encoding.md R80). -/
def decodeTableWord (nbits w : Nat) : Option Instr :=
  if nbits ≤ 32 then (decode (tableWord nbits w)).toOption else none

end Sys2Proof
end

