-- ==== Sys2Proof/Config.lean ====
section
/-! DEFINITION. What an implementation of the QSE core fixes (00_scope.md R8) and the values the spec leaves open.
The opaque constants have no body: nothing can be proved about the value of one, so a theorem that mentions one holds
for every value. -/

namespace Sys2Proof.Config

/-- The three sizes of 00_scope.md R8, each with R8's constraint. They are a field of State (log 3), so a statement
about every state is a statement about every implementation. -/
structure Params where
  /-- `MAX_IMAGE`: bytes of image memory. -/
  maxImage : Nat
  /-- `MAX_PACKET`: the largest `PACKET_SIZE` the frame buffer holds. -/
  maxPacket : Nat
  /-- `MAX_SECTORS`: entries of the sector table. -/
  maxSectors : Nat
  maxImage_pos : 1 ≤ maxImage
  maxImage_le : maxImage ≤ 2 ^ 32 - 1
  maxPacket_ge : 2048 ≤ maxPacket
  maxPacket_le : maxPacket ≤ 2 ^ 32 - 21
  maxSectors_pos : 1 ≤ maxSectors
  maxSectors_le : maxSectors ≤ 128
deriving DecidableEq, Repr

/-- The sizes every program of 95_test_vectors.md uses (section 3). DESIGN CHOICE, unsafe: the spec leaves the three
sizes open; State.reset takes these (log 3). -/
def Params.reference : Params where
  maxImage := 65536
  maxPacket := 2048
  maxSectors := 16
  maxImage_pos := by decide
  maxImage_le := by decide
  maxPacket_ge := by decide
  maxPacket_le := by decide
  maxSectors_pos := by decide
  maxSectors_le := by decide

/-- `QSE_BASE`, the address at which the host's bus places the register window: "any; no rule depends on it"
(00_scope.md R8). Accesses are given by their offset in the window (log 3). -/
opaque qseBase : Nat

/-- `RENDER(y, k, SR)`, "a total function of its three arguments only" (44_modulator.md R158): the word read from
`OUT_DATA` for the real value of R152. Free value (log 4). -/
opaque render : Symbol → Word → Word → Word

/-- The samples per symbol `S` that the core uses while `BIT_RATE = 0`, by `SAMPLE_RATE`: R150's `SR div BR` has no
value there, and a block opened before `BIT_RATE` was cleared can still be read. Free value (log 5). -/
opaque ratioByZero : Word → Nat

/-- The phase accumulator after a sample popped while `SAMPLE_RATE = 0`, by `k` and `FC`: R157's `(k + FC) mod SR` has
no value there. Free value (log 5). -/
opaque phaseByZero : Word → Word → Word

end Sys2Proof.Config
end

