-- ==== Sys2Proof/Machine/State.lean ====
section
/-! DEFINITION. Everything the spec gives the QSE core to hold (10_state.md, 20_memory.md R60), the outcomes of a step
that are no state, and the machine after hardware reset (70_reset_and_hazards.md R270). -/

namespace Sys2Proof.Machine

/-- The controller states of 10_state.md R23. -/
inductive Fsm where
  | idle
  | ready
  | intro
  | packet
  | pause
  | outro
  | done
  | error
deriving DecidableEq, Repr

/-- The kinds of output block (10_state.md R53). -/
inductive OutKind where
  | none
  | intro
  | packet
  | pauseShort
  | pauseErase
  | outro
  | raw
  | blank
deriving DecidableEq, Repr

/-- The symbol sources of an output block (10_state.md R53). -/
inductive OutSrc where
  | none
  | framebuf
  | single
  | zeros
deriving DecidableEq, Repr

/-- The fatal errors of 60_exceptions.md R230. -/
inductive FatalErr where
  | cfgStrategy
  | cfgZero
  | cfgSrFc
  | cfgSrBr
  | cfgPeriodSymbol
  | cfgPktCapacity
  | cfgPktGtUnit
  | cfgUnitNotMult
  | cfgImageLen
  | cfgSectorCount
  | cfgAddrRange
  | frameOversize
  | indexOverflow
deriving DecidableEq, Repr

/-- The non-fatal command errors of 60_exceptions.md R231. -/
inductive CmdErr where
  | illegalCmd
  | cmdSeq
  | argRange
  | outUnderflow
  | locked
  | bus
  | roWrite
deriving DecidableEq, Repr

/-- A byte memory: (address, byte) pairs in the canonical form of Ops' Memory.wf (log 6). -/
abbrev Memory := List Host.Cell

/-- The session state of 10_state.md R21. -/
structure Session where
  /-- `SCR_STATE`, `s`. -/
  scrState : Word
  /-- `SAMPLE_INDEX`, `N`. -/
  sampleIndex : BitVec 64
  /-- `PHASE_ACC`, `k`. -/
  phaseAcc : Word
  /-- `SESSION_STARTED`. -/
  started : Bool
deriving DecidableEq, Repr

/-- The controller's cursor (10_state.md R52). -/
structure Ctl where
  /-- `CTL_OFFSET`. -/
  offset : Word
  /-- `CTL_PKTCNT`. -/
  pktcnt : Word
  /-- `CTL_PADLEN`. -/
  padlen : Word
deriving DecidableEq, Repr

/-- The construction registers (class CONS, 10_state.md R36 to R40). -/
structure Cons where
  /-- `SAMPLE_RATE`, `SR`. -/
  sampleRate : Word
  /-- `CARRIER_FREQ`, `FC`. -/
  carrierFreq : Word
  /-- `BIT_RATE`, `BR`. -/
  bitRate : Word
  /-- `PACKET_SIZE`, `PS`. -/
  packetSize : Word
  /-- `SCR_CTRL.EN`; bits [31:1] of the register are reserved. -/
  scrEn : Bool
deriving DecidableEq, Repr

/-- The pacing registers (class PACE, 10_state.md R41, R43 to R49). -/
structure Pace where
  /-- `SCR_SEED`. -/
  scrSeed : Word
  /-- `STRATEGY`; bits [31:1] are stored (R43). -/
  strategy : Word
  /-- `UNIT_SIZE`, `U`. -/
  unitSize : Word
  /-- `PAUSE_SHORT_US`. -/
  pauseShortUs : Word
  /-- `PAUSE_ERASE_US`. -/
  pauseEraseUs : Word
  /-- `APP_START`. -/
  appStart : Word
  /-- `INTRO_US`. -/
  introUs : Word
  /-- `OUTRO_US`. -/
  outroUs : Word
  /-- `IMAGE_LEN`, `L`. -/
  imageLen : Word
  /-- `SECTOR_COUNT`. -/
  sectorCount : Word
  /-- `SECT[i]`. The window has room for 128 entries; the first `MAX_SECTORS` exist (log 7). -/
  sect : Vector Word 128
deriving DecidableEq, Repr

/-- The output block in progress (10_state.md R53). -/
structure OutBlock where
  /-- `OUT_KIND`. -/
  kind : OutKind
  /-- `OUT_SRC`. -/
  src : OutSrc
  /-- `OUT_NSYM`, an unbounded natural. -/
  nsym : Nat
  /-- `OUT_SYM`. -/
  sym : Symbol
  /-- `OUT_POS`, samples already popped. -/
  pos : Nat
deriving DecidableEq, Repr

/-- The error registers and the sticky bit `STATUS.CMD_ERR` (10_state.md R30 to R32). -/
structure Errors where
  /-- `ERR_CODE[7:0]`. -/
  errCode : Byte
  /-- `ERR_INFO`. -/
  errInfo : Word
  /-- `STATUS.CMD_ERR`. -/
  cmdErr : Bool
  /-- `CMD_ERR_CODE[7:0]`. -/
  cmdErrCode : Byte
deriving DecidableEq, Repr

/-- The interrupt registers (10_state.md R33); bits [31:4] of both are reserved. -/
structure Irq where
  /-- `IRQ_EN[3:0]`. -/
  en : BitVec 4
  /-- `IRQ_PEND[3:0]`. -/
  pend : BitVec 4
deriving DecidableEq, Repr

/-- The whole machine. `params`, `pending` and `replies` are the model's own fields (log 1, log 3); every other field
is an element of 10_state.md R20. -/
structure State where
  /-- The implementation's sizes (00_scope.md R8). -/
  params : Config.Params
  session : Session
  fsm : Fsm
  ctl : Ctl
  cons : Cons
  pace : Pace
  out : OutBlock
  err : Errors
  irq : Irq
  /-- `RESULT` (R34). -/
  result : Word
  /-- `ARG0` (R35). -/
  arg0 : Word
  /-- `ARG1` (R35). -/
  arg1 : Word
  /-- `IMG_PTR` (R54). -/
  imgPtr : Word
  /-- The image memory (20_memory.md R62). -/
  image : Memory
  /-- `FB_PTR` (R55). -/
  fbPtr : Word
  /-- `FRAME_LEN` (R55). -/
  frameLen : Word
  /-- The frame buffer `FB` (R55). -/
  fb : Memory
  /-- The host's events not yet performed, oldest first. -/
  pending : Program
  /-- The words returned to the host's reads, oldest first. -/
  replies : List Word
deriving DecidableEq, Repr

/-- Engine accesses to a place the spec says does not exist. Only states that no run reaches make one (log 8), so a
stop here is safe: the model goes on wherever the hardware can be. -/
inductive Fault where
  /-- Raised by FRAME and by PULL in `PACKET` when `PACKET_SIZE > MAX_PACKET`: the frame would end beyond
  `FB[MAX_PACKET + 19]` (10_state.md R55). CFGCHK refuses such a size before either is accepted (R192). Safe. -/
  | frameBufferBounds
  /-- Raised by PULL in `PAUSE` under sector pacing when `SECTOR_COUNT > MAX_SECTORS`: the lookup would read an entry
  that does not exist (10_state.md R49). CFGCHK refuses such a count (R192). Safe. -/
  | sectorTableBounds
  /-- Raised by a read of `OUT_DATA` or `OUT_PEEK` with samples remaining in a block that has no symbol there: no source
  (44_modulator.md R156 has no such case) or a frame symbol at or beyond `4 * FRAME_LEN` (43_mapper.md R142). Safe. -/
  | noBlockSymbol
deriving DecidableEq, Repr

/-- What the model has no meaning for. Every command has one, so nothing raises this. -/
inductive Refusal where
  /-- An instruction whose arm of exec has no meaning yet. Safe: the model stops. -/
  | notModelled (mnemonic : String)
deriving DecidableEq, Repr

/-- One step's outcome. -/
abbrev Result := Host.Outcome State Fault Refusal

/-- The machine right after hardware reset (70_reset_and_hazards.md R270) of an implementation with sizes `p` whose
image memory and frame buffer come up holding `image` and `fb`. -/
def State.powerOn (p : Config.Params) (image fb : Memory) : State where
  params := p
  session := ⟨0, 0, 0, false⟩
  fsm := .idle
  ctl := ⟨0, 0, 0⟩
  cons := ⟨0, 0, 0, 0, false⟩
  pace := ⟨0, 0, 0, 0, 0, 0, 0, 0, 0, 0, Vector.replicate 128 0⟩
  out := ⟨.none, .none, 0, 0, 0⟩
  err := ⟨0, 0, false, 0⟩
  irq := ⟨0, 0⟩
  result := 0
  arg0 := 0
  arg1 := 0
  imgPtr := 0
  image := image
  fbPtr := 0
  frameLen := 0
  fb := fb
  pending := []
  replies := []

/-- The machine right after reset, with the sizes of 95_test_vectors.md (log 3), the memories at their unwritten
contents (log 6) and no host event waiting (log 1). -/
def State.reset : State := State.powerOn Config.Params.reference [] []

end Sys2Proof.Machine
end

