-- ==== Sys2Proof/Machine/Ops.lean ====
section
/-! DEFINITION. The named operations every command and access is written over: byte memories, the interrupt bits, the
output block's arithmetic and opening, taking an error (60_exceptions.md R232, R236) and leaving it (R235). -/

namespace Sys2Proof.Machine

/-! ### Byte memories (image memory and frame buffer) -/

/-- What an address nothing has written reads as. The spec gives no power-on contents (20_memory.md R62, 10_state.md
R55). DESIGN CHOICE, unsafe (log 6). -/
def Memory.unwritten : Byte := 0x00#8

/-- The byte at `a`. -/
def Memory.read : Memory → Nat → Byte
  | [], _ => Memory.unwritten
  | (b, v) :: rest, a => if a = b then v else Memory.read rest a

/-- The memory with `v` at `a`, kept in canonical form: writing the unwritten byte removes the entry. -/
def Memory.write : Memory → Nat → Byte → Memory
  | [], a, v => if v = Memory.unwritten then [] else [(a, v)]
  | (b, w) :: rest, a, v =>
    if a < b then (if v = Memory.unwritten then (b, w) :: rest else (a, v) :: (b, w) :: rest)
    else if a = b then (if v = Memory.unwritten then rest else (a, v) :: rest)
    else (b, w) :: Memory.write rest a v

/-- The memory with the bytes written at `a`, `a + 1`, … in order. -/
def Memory.writeBytes (m : Memory) (a : Nat) : List Byte → Memory
  | [] => m
  | v :: vs => Memory.writeBytes (Memory.write m a v) (a + 1) vs

/-- A memory of `size` bytes holding the listed cells, each at an address below `size`; a later cell of one address
wins. -/
def Memory.ofCells (size : Nat) (cells : List Host.Cell) : Memory :=
  cells.foldl (fun m c => if c.1 < size then Memory.write m c.1 c.2 else m) []

/-- Every address of the list is above `lo`, rising, below `size`, and holds another byte than the unwritten one. -/
def Memory.wfFrom (size : Nat) : Option Nat → Memory → Bool
  | _, [] => true
  | lo, (a, v) :: rest =>
    (match lo with
      | none => true
      | some l => decide (l < a)) &&
    decide (a < size) && decide (v ≠ Memory.unwritten) && Memory.wfFrom size (some a) rest

/-- The canonical form: addresses strictly rising and below `size`, no entry equal to what an unlisted address reads
as. -/
def Memory.wf (size : Nat) (m : Memory) : Bool := Memory.wfFrom size none m

/-! ### Word helpers -/

/-- A natural read through a 32-bit register that saturates at `0xFFFF_FFFF` (10_state.md R53). -/
def saturate (n : Nat) : Word := if n < 2 ^ 32 then BitVec.ofNat 32 n else 0xFFFF_FFFF#32

/-- `cond ? 1 : 0` in a register of 32 bits. -/
def bit (b : Bool) : Word := if b then 1#32 else 0#32

/-! ### Interrupt bits (10_state.md R33) -/

/-- `IRQ_PEND[0]`, `DRAINED`. -/
def irqDrained : BitVec 4 := 0b0001#4
/-- `IRQ_PEND[1]`, `DONE`. -/
def irqDone : BitVec 4 := 0b0010#4
/-- `IRQ_PEND[2]`, `FATAL`. -/
def irqFatal : BitVec 4 := 0b0100#4
/-- `IRQ_PEND[3]`, `CMDERR`. -/
def irqCmdErr : BitVec 4 := 0b1000#4

/-- Set pending bits, whatever `IRQ_EN` holds (10_state.md R33). -/
def pend (bits : BitVec 4) (s : State) : State :=
  { s with irq := { s.irq with pend := s.irq.pend ||| bits } }

/-- Set pending bits when a condition holds. -/
def pendIf (cond : Bool) (bits : BitVec 4) (s : State) : State :=
  { s with irq := { s.irq with pend := if cond then s.irq.pend ||| bits else s.irq.pend } }

/-! ### Errors (60_exceptions.md) -/

/-- The codes of 60_exceptions.md R230. -/
def FatalErr.code : FatalErr → Byte
  | .cfgStrategy => 0x01#8
  | .cfgZero => 0x02#8
  | .cfgSrFc => 0x03#8
  | .cfgSrBr => 0x04#8
  | .cfgPeriodSymbol => 0x05#8
  | .cfgPktCapacity => 0x06#8
  | .cfgPktGtUnit => 0x07#8
  | .cfgUnitNotMult => 0x08#8
  | .cfgImageLen => 0x09#8
  | .cfgSectorCount => 0x0A#8
  | .cfgAddrRange => 0x0B#8
  | .frameOversize => 0x10#8
  | .indexOverflow => 0x11#8

/-- The codes of 60_exceptions.md R231. -/
def CmdErr.code : CmdErr → Byte
  | .illegalCmd => 0x20#8
  | .cmdSeq => 0x21#8
  | .argRange => 0x22#8
  | .outUnderflow => 0x23#8
  | .locked => 0x24#8
  | .bus => 0x25#8
  | .roWrite => 0x26#8

/-- No output block: `OUT_KIND`, `OUT_SRC` `NONE`, the rest 0 (R191, R232). -/
def noBlock : OutBlock := ⟨.none, .none, 0, 0, 0⟩

/-- `raise Fatal(code, info)` (60_exceptions.md R232): the error is recorded, the controller enters `ERROR`, the open
block is discarded and `FATAL` pends. Nothing else changes. -/
def raiseFatal (e : FatalErr) (info : Word) (s : State) : State :=
  pend irqFatal
    { s with err := { s.err with errCode := e.code, errInfo := info }, fsm := .error, out := noBlock }

/-- `raise CmdErr(code)` (60_exceptions.md R236): the sticky bit, the code and `CMDERR`. Nothing else changes. -/
def raiseCmdErr (e : CmdErr) (s : State) : State :=
  pend irqCmdErr { s with err := { s.err with cmdErr := true, cmdErrCode := e.code } }

/-- Session reset (46_pacing.md R191), the return from `ERROR` (60_exceptions.md R235): a new session, `IDLE`, the
controller, block, frame, result and fatal error cleared; everything else kept. -/
def sessionReset (s : State) : State :=
  { s with
    session := ⟨s.pace.scrSeed, 0, 0, false⟩
    fsm := .idle
    ctl := ⟨0, 0, 0⟩
    out := noBlock
    frameLen := 0
    result := 0
    err := { s.err with errCode := 0, errInfo := 0 } }

/-- Hardware reset (70_reset_and_hazards.md R270): every element at its reset value, the memories holding whatever the
event says (log 2). The sizes are the implementation's, and the host's own events and replies are not the core's. -/
def hardReset (image fb : List Host.Cell) (s : State) : State :=
  { State.powerOn s.params (Memory.ofCells s.params.maxImage image) (Memory.ofCells (s.params.maxPacket + 20) fb) with
    pending := s.pending
    replies := s.replies }

/-! ### Controller states (10_state.md R23, 30_encoding.md R83) -/

/-- "The states 2 to 5 are called *running* states" (10_state.md R23). -/
def Fsm.running : Fsm → Bool
  | .intro | .packet | .pause | .outro => true
  | .idle | .ready | .done | .error => false

/-- The states that accept CFGCHK, SCRLD, SCRB, CRC and MAPB (30_encoding.md R83). -/
def Fsm.acceptsUnit : Fsm → Bool
  | .idle | .ready | .done => true
  | .intro | .packet | .pause | .outro | .error => false

/-- The states that accept RUN, FRAME, MODS, MODF and BLANK, "drained" apart (30_encoding.md R83). -/
def Fsm.acceptsDirect : Fsm → Bool
  | .ready | .done => true
  | .idle | .intro | .packet | .pause | .outro | .error => false

/-! ### Output block (10_state.md R53, 44_modulator.md R150, R155) -/

/-- `S = (SR div BR) * 2`, samples per symbol, from the registers as they stand (44_modulator.md R150; log 10). With
`BR = 0` the division has no value and `S` is free (log 5). -/
def symbolSamples (c : Cons) : Nat :=
  if c.bitRate = 0 then Config.ratioByZero c.sampleRate
  else c.sampleRate.toNat / c.bitRate.toNat * 2

/-- `OUT_NSYM * S`, the samples of the block (44_modulator.md R155). -/
def blockSamples (c : Cons) (o : OutBlock) : Nat :=
  if o.nsym = 0 then 0 else o.nsym * symbolSamples c

/-- `OUT_REMAIN = OUT_NSYM * S - OUT_POS` (10_state.md R53). -/
def outRemain (s : State) : Nat := blockSamples s.cons s.out - s.out.pos

/-- `OUT_REMAIN == 0`. -/
def drained (s : State) : Bool := decide (outRemain s = 0)

/-- `OpenBlock(kind, src, nsym, sym)` (44_modulator.md R155): an empty block pends `DRAINED` at once. -/
def openBlock (kind : OutKind) (src : OutSrc) (nsym : Nat) (sym : Symbol) (s : State) : State :=
  pendIf (decide (blockSamples s.cons ⟨kind, src, nsym, sym, 0⟩ = 0)) irqDrained
    { s with out := ⟨kind, src, nsym, sym, 0⟩ }

/-! ### Host replies -/

/-- The host's read returns `w` (log 1). -/
def reply (w : Word) (s : State) : State := { s with replies := s.replies ++ [w] }

/-- A command's state check: accepted, or `CmdErr(CMD_SEQ)` with no other effect (30_encoding.md R83). -/
def whenAccepted (ok : Bool) (s : State) (body : State → Result) : Result :=
  if ok then body s else .next (raiseCmdErr .cmdSeq s)

end Sys2Proof.Machine
end

