-- ==== Sys2Proof/Machine/Operands.lean ====
section
/-! DEFINITION. The operand forms of the commands (30_encoding.md R81) and the engine's reads of the image
(20_memory.md R64). -/

namespace Sys2Proof.Machine

/-- Format A's byte address `a = reg[ARG0]` (30_encoding.md R81). -/
def argAddress (s : State) : Nat := s.arg0.toNat

/-- Format A's byte length `n = reg[ARG1]` (30_encoding.md R81). -/
def argLength (s : State) : Nat := s.arg1.toNat

/-- `a + n > 2^32`, on unbounded integers: the range check of CRC and FRAME (42_framer.md R123, R124). -/
def argOutOfRange (s : State) : Bool := decide (argAddress s + argLength s > 2 ^ 32)

/-- Format B's byte, zero-extended to a register (30_encoding.md R81). -/
def byteWord (b : Byte) : Word := b.setWidth 32

/-- `Img(a)`, the virtually padded image byte (20_memory.md R64): fill `0xFF` at and above `IMAGE_LEN`, and at and above
`MAX_IMAGE` whatever `IMAGE_LEN` holds. -/
def imageByte (s : State) (a : Nat) : Byte :=
  if a < s.pace.imageLen.toNat ∧ a < s.params.maxImage then s.image.read a else 0xFF#8

/-- `[Img(a + i) for i in 0 .. n]` (42_framer.md R123). -/
def imageBytes (s : State) (a n : Nat) : List Byte := (List.range n).map (fun i => imageByte s (a + i))

end Sys2Proof.Machine
end

