-- ==== Sys2Proof/Machine/Scrambler.lean ====
section
/-! DEFINITION. The keyed scrambler (41_scrambler.md): the keystream, and the commands SCRLD and SCRB. -/

namespace Sys2Proof.Machine

/-- The key byte of a scrambler state: "high byte of s, i.e. s >> 24" (41_scrambler.md R100). -/
def keyByte (x : Word) : Byte := x.extractLsb' 24 8

/-- The LCG step, `(s * 1664525 + 1013904223) mod 2^32` (41_scrambler.md R100). The literals stand on the left: there
the kernel does not count them down when it compares an unknown state with the next one. -/
def lcgNext (x : Word) : Word := 1013904223#32 + 1664525#32 * x

/-- The bytes sent when `bs` is scrambled in order from state `x` (41_scrambler.md R100, R101): the key byte is taken
before the update. -/
def scrambled (x : Word) : List Byte → List Byte
  | [] => []
  | b :: bs => (b ^^^ keyByte x) :: scrambled (lcgNext x) bs

/-- The scrambler state after `bs` is scrambled from state `x`: one step a byte (41_scrambler.md R101). -/
def keystreamAfter (x : Word) : List Byte → Word
  | [] => x
  | _ :: bs => keystreamAfter (lcgNext x) bs

/-- The state after scrambling `bs`: `s` advanced, and `SESSION_STARTED` set by the first byte (41_scrambler.md
R100). -/
def afterScramble (bs : List Byte) (s : State) : State :=
  { s with
    session := { s.session with
      scrState := keystreamAfter s.session.scrState bs
      started := s.session.started || !bs.isEmpty } }

/-- `SCRLD` (41_scrambler.md R102): `s <- reg[SCR_SEED]`; `SESSION_STARTED` is unchanged. -/
def execScrld (s : State) : Result :=
  whenAccepted s.fsm.acceptsUnit s fun s =>
    .next { s with session := { s.session with scrState := s.pace.scrSeed } }

/-- `SCRB b` (41_scrambler.md R103): the scrambled byte in `RESULT`, whatever `SCR_CTRL.EN` holds. -/
def execScrb (b : Byte) (s : State) : Result :=
  whenAccepted s.fsm.acceptsUnit s fun s =>
    .next { s with
      session := { s.session with scrState := lcgNext s.session.scrState, started := true }
      result := byteWord (b ^^^ keyByte s.session.scrState) }

end Sys2Proof.Machine
end

