-- ==== Sys2Proof/Machine/Framer.lean ====
section
/-! DEFINITION. The packet framer and its CRC-32 (42_framer.md): the frame function and the commands CRC and FRAME. -/

namespace Sys2Proof.Machine

/-- One bit of the reflected CRC-32 (42_framer.md R120). -/
def crcBit (c : Word) : Word := if c.getLsbD 0 then (c >>> 1) ^^^ 0xEDB88320#32 else c >>> 1

/-- One byte of the CRC-32, least-significant bit first (42_framer.md R120). -/
def crcByte (c : Word) (b : Byte) : Word :=
  crcBit (crcBit (crcBit (crcBit (crcBit (crcBit (crcBit (crcBit (c ^^^ b.setWidth 32))))))))

/-- `CRC32(x)` (42_framer.md R120): initial value and final exclusive-or `0xFFFF_FFFF`. -/
def crc32 (x : List Byte) : Word := x.foldl crcByte 0xFFFFFFFF#32 ^^^ 0xFFFFFFFF#32

/-- The 16-byte preamble (42_framer.md R121). -/
def preamble : List Byte := List.replicate 8 0x00#8 ++ List.replicate 4 0x99#8 ++ List.replicate 4 0xCC#8

/-- The CRC's four bytes in frame order, big-endian (42_framer.md R122, 20_memory.md R65). -/
def crcBytes (c : Word) : List Byte :=
  [c.extractLsb' 24 8, c.extractLsb' 16 8, c.extractLsb' 8 8, c.extractLsb' 0 8]

/-- `preamble ++ payload ++ crc_bytes` (42_framer.md R122). -/
def frameBytes (payload : List Byte) : List Byte := preamble ++ payload ++ crcBytes (crc32 payload)

/-- The payload before scrambling: `n` image bytes, then `0xFF` up to `PACKET_SIZE` (42_framer.md R125). -/
def paddedPayload (a n : Nat) (s : State) : List Byte :=
  imageBytes s a n ++ List.replicate (s.cons.packetSize.toNat - n) 0xFF#8

/-- The payload as sent: scrambled when `SCR_CTRL.EN` is 1 (42_framer.md R125). -/
def sentPayload (a n : Nat) (s : State) : List Byte :=
  if s.cons.scrEn then scrambled s.session.scrState (paddedPayload a n s) else paddedPayload a n s

/-- The scrambler's part of `FrameOf`: `s` advances by `PACKET_SIZE` positions when enabled (42_framer.md R125). -/
def frameSession (a n : Nat) (s : State) : State :=
  { s with session := if s.cons.scrEn then (afterScramble (paddedPayload a n s) s).session else s.session }

/-- `FrameOf(a, n)` (42_framer.md R125): pad, scramble, checksum, then the frame buffer, `FRAME_LEN` and `RESULT`. -/
def frameOf (a n : Nat) (s : State) : State :=
  { frameSession a n s with
    fb := s.fb.writeBytes 0 (frameBytes (sentPayload a n s))
    frameLen := s.cons.packetSize + 20#32
    result := crc32 (sentPayload a n s) }

/-- The frame fits the frame buffer `FB[0 .. MAX_PACKET + 20)` (10_state.md R55). CFGCHK guarantees it wherever a frame
is made (46_pacing.md R192; log 8). -/
def frameFits (s : State) : Bool := decide (s.cons.packetSize.toNat ≤ s.params.maxPacket)

/-- `CRC` (42_framer.md R123): the checksum of an image range, with virtual padding and nothing else. -/
def execCrc (s : State) : Result :=
  whenAccepted s.fsm.acceptsUnit s fun s =>
    if argOutOfRange s then .next (raiseCmdErr .argRange s)
    else .next { s with result := crc32 (imageBytes s (argAddress s) (argLength s)) }

/-- `FRAME` (42_framer.md R124): `ARG_RANGE`, then `FRAME_OVERSIZE` with the length, then the frame function. -/
def execFrame (s : State) : Result :=
  whenAccepted (s.fsm.acceptsDirect && drained s) s fun s =>
    if argOutOfRange s then .next (raiseCmdErr .argRange s)
    else if argLength s > s.cons.packetSize.toNat then .next (raiseFatal .frameOversize s.arg1 s)
    else if frameFits s then .next (frameOf (argAddress s) (argLength s) s)
    else .fault .frameBufferBounds

end Sys2Proof.Machine
end

