-- ==== Sys2Proof/Machine/Flags.lean ====
section
/-! DEFINITION. The core's flags: the bits of `STATUS` and the interrupt line (10_state.md R30, R33, R56). Every bit but
`CMD_ERR` is a read of other state. -/

namespace Sys2Proof.Machine

/-- `STATUS.FSM` (10_state.md R23). -/
def Fsm.code : Fsm → BitVec 3
  | .idle => 0#3
  | .ready => 1#3
  | .intro => 2#3
  | .packet => 3#3
  | .pause => 4#3
  | .outro => 5#3
  | .done => 6#3
  | .error => 7#3

/-- `STATUS.OUT_VALID` (10_state.md R30). -/
def outValid (s : State) : Bool := decide (outRemain s ≠ 0)

/-- `STATUS.FATAL` (10_state.md R30). -/
def fatalFlag (s : State) : Bool := decide (s.fsm = .error)

/-- `STATUS.FRAME_VALID` (10_state.md R30, R55). -/
def frameValid (s : State) : Bool := decide (s.frameLen ≠ 0)

/-- The interrupt output line, `(IRQ_PEND & IRQ_EN) != 0` (10_state.md R33, 60_exceptions.md R238). -/
def irqLine (s : State) : Bool := decide (s.irq.pend &&& s.irq.en ≠ 0)

/-- `STATUS` (10_state.md R30); bits [31:9] read 0. -/
def statusWord (s : State) : Word :=
  s.fsm.code.setWidth 32 ||| bit (outValid s) <<< 3 ||| bit (fatalFlag s) <<< 4 ||| bit s.err.cmdErr <<< 5 |||
    bit s.session.started <<< 6 ||| bit (frameValid s) <<< 7 ||| bit (irqLine s) <<< 8

end Sys2Proof.Machine
end

