-- ==== Sys2Proof/Machine/Mapper.lean ====
section
/-! DEFINITION. The symbol mapper (43_mapper.md): a byte's symbols, the frame buffer as a symbol stream, and MAPB. -/

namespace Sys2Proof.Machine

/-- The four symbols of a byte in transmission order, most-significant pair first (43_mapper.md R140). -/
def symbolsOf (b : Byte) : List Symbol :=
  [b.extractLsb' 6 2, b.extractLsb' 4 2, b.extractLsb' 2 2, b.extractLsb' 0 2]

/-- The symbol stream of a byte sequence (43_mapper.md R140). -/
def symbolStream (x : List Byte) : List Symbol := x.flatMap symbolsOf

/-- The `MAPB` result: one symbol per byte lane, the first in bits [7:0] (43_mapper.md R141). -/
def packSymbols (b : Byte) : Word :=
  (b.extractLsb' 6 2 : Symbol).setWidth 32 ||| (b.extractLsb' 4 2 : Symbol).setWidth 32 <<< 8 |||
    (b.extractLsb' 2 2 : Symbol).setWidth 32 <<< 16 ||| (b.extractLsb' 0 2 : Symbol).setWidth 32 <<< 24

/-- `SymFB(i) = (FB[i div 4] >> (6 - 2 * (i mod 4))) & 0x3` (43_mapper.md R142). -/
def symFb (s : State) (i : Nat) : Symbol := (s.fb.read (i / 4) >>> (6 - 2 * (i % 4))).setWidth 2

/-- `MAPB b` (43_mapper.md R141): no state but `RESULT` changes. -/
def execMapb (b : Byte) (s : State) : Result :=
  whenAccepted s.fsm.acceptsUnit s fun s => .next { s with result := packSymbols b }

end Sys2Proof.Machine
end

