-- ==== Sys2Proof/Machine/Modulator.lean ====
section
/-! DEFINITION. The QPSK modulator as the producer behind the output port (44_modulator.md): the symbol of a sample, the
sample pop of `OUT_DATA`, its descriptor `OUT_PEEK`, and the commands MODS and MODF. -/

namespace Sys2Proof.Machine

/-- `P = SR div FC`, the carrier period in samples (44_modulator.md R150). -/
def carrierPeriod (c : Cons) : Nat := c.sampleRate.toNat / c.carrierFreq.toNat

/-- `BlockSym(j)` (44_modulator.md R156): the symbol of sample `j` of the open block. None where the rule gives none: no
source, or a frame symbol at or beyond `4 * FRAME_LEN` (43_mapper.md R142; log 8). -/
def blockSym (s : State) (j : Nat) : Option Symbol :=
  match s.out.src with
  | .framebuf =>
    if j / symbolSamples s.cons < 4 * s.frameLen.toNat then some (symFb s (j / symbolSamples s.cons)) else none
  | .single => some s.out.sym
  | .zeros => some 0#2
  | .none => none

/-- The phase accumulator's step, `(k + FC) mod SR` (44_modulator.md R157), free while `SR = 0` (log 5). -/
def phaseNext (c : Cons) (k : Word) : Word :=
  if c.sampleRate = 0 then Config.phaseByZero k c.carrierFreq
  else BitVec.ofNat 32 ((k.toNat + c.carrierFreq.toNat) % c.sampleRate.toNat)

/-- The word of the next sample when its symbol is `y` (44_modulator.md R157, R158). -/
def sampleWord (s : State) (y : Symbol) : Word := Config.render y s.session.phaseAcc s.cons.sampleRate

/-- The state after one sample: `N`, `k`, `OUT_POS` advance, the session has started, and the block's last sample pends
`DRAINED` (44_modulator.md R157). -/
def advanceSample (s : State) : State :=
  pendIf (decide (blockSamples s.cons s.out - (s.out.pos + 1) = 0)) irqDrained
    { s with
      session := { s.session with
        sampleIndex := s.session.sampleIndex + 1#64
        phaseAcc := phaseNext s.cons s.session.phaseAcc
        started := true }
      out := { s.out with pos := s.out.pos + 1 } }

/-- A host read of `OUT_DATA` (44_modulator.md R157). -/
def readOutData (s : State) : Result :=
  if drained s then .next (reply 0 (raiseCmdErr .outUnderflow s))
  else if s.session.sampleIndex = 0xFFFFFFFFFFFFFFFF#64 then .next (reply 0 (raiseFatal .indexOverflow 0 s))
  else
    match blockSym s s.out.pos with
    | some y => .next (reply (sampleWord s y) (advanceSample s))
    | none => .fault .noBlockSymbol

/-- A host read of `OUT_PEEK` (10_state.md R53): bit 31 and the next sample's symbol, or 0 when the block is drained. -/
def readOutPeek (s : State) : Result :=
  if drained s then .next (reply 0 s)
  else
    match blockSym s s.out.pos with
    | some y => .next (reply (0x80000000#32 ||| y.setWidth 32) s)
    | none => .fault .noBlockSymbol

/-- `MODS y` (44_modulator.md R159): a block of one symbol. -/
def execMods (y : Symbol) (s : State) : Result :=
  whenAccepted (s.fsm.acceptsDirect && drained s) s fun s => .next (openBlock .raw .single 1 y s)

/-- `MODF` (44_modulator.md R160): a block over the frame held, which is not consumed. -/
def execModf (s : State) : Result :=
  whenAccepted (s.fsm.acceptsDirect && drained s && frameValid s) s fun s =>
    .next (openBlock .raw .framebuf (4 * s.frameLen.toNat) 0 s)

end Sys2Proof.Machine
end

