-- ==== Sys2Proof/Machine/Session.lean ====
section
/-! DEFINITION. The session commands NOP, SRESET and CFGCHK (46_pacing.md R190 to R192). -/

namespace Sys2Proof.Machine

/-- `roundup(L, U) = U * ((L + U - 1) div U)` (46_pacing.md R195). -/
def roundup (l u : Nat) : Nat := u * ((l + u - 1) / u)

/-- The first of the five non-zero checks that fails, with its register's offset (46_pacing.md R192, `CFG_ZERO`). -/
def zeroCheck (s : State) : Option Word :=
  if s.cons.sampleRate = 0 then some 0x040#32
  else if s.cons.carrierFreq = 0 then some 0x044#32
  else if s.cons.bitRate = 0 then some 0x048#32
  else if s.cons.packetSize = 0 then some 0x04C#32
  else if s.pace.unitSize = 0 then some 0x064#32
  else none

/-- `S >= 2^32 or (P mod S != 0 and S mod P != 0)` (46_pacing.md R192, `CFG_PERIOD_SYMBOL`). -/
def periodSymbolBad (c : Cons) : Bool :=
  decide (symbolSamples c ≥ 2 ^ 32) ||
    (decide (carrierPeriod c % symbolSamples c ≠ 0) && decide (symbolSamples c % carrierPeriod c ≠ 0))

/-- The padded image length `roundup(L, U)` of the loaded configuration (46_pacing.md R195). -/
def paddedLength (p : Pace) : Nat := roundup p.imageLen.toNat p.unitSize.toNat

/-- `reg[STRATEGY][0] == 1`, sector-aware pacing (10_state.md R43). -/
def sectorPaced (p : Pace) : Bool := p.strategy.getLsbD 0

/-- CFGCHK's checks in the order of 46_pacing.md R192: the first that fails, with its information word. -/
def cfgError (s : State) : Option (FatalErr × Word) :=
  if s.pace.strategy >>> 1 ≠ 0 then some (.cfgStrategy, 0x060#32)
  else
    match zeroCheck s with
    | some off => some (.cfgZero, off)
    | none =>
      if s.cons.sampleRate.toNat % s.cons.carrierFreq.toNat ≠ 0 then some (.cfgSrFc, 0x044#32)
      else if s.cons.sampleRate.toNat % s.cons.bitRate.toNat ≠ 0 then some (.cfgSrBr, 0x048#32)
      else if periodSymbolBad s.cons then some (.cfgPeriodSymbol, 0x09C#32)
      else if s.cons.packetSize.toNat > s.params.maxPacket then some (.cfgPktCapacity, 0x04C#32)
      else if s.cons.packetSize.toNat > s.pace.unitSize.toNat then some (.cfgPktGtUnit, 0x04C#32)
      else if s.pace.unitSize.toNat % s.cons.packetSize.toNat ≠ 0 then some (.cfgUnitNotMult, 0x064#32)
      else if s.pace.imageLen.toNat > s.params.maxImage ∨ paddedLength s.pace > 2 ^ 32 - 1 then
        some (.cfgImageLen, 0x07C#32)
      else if sectorPaced s.pace then
        if s.pace.sectorCount.toNat > s.params.maxSectors then some (.cfgSectorCount, 0x080#32)
        else if s.pace.appStart.toNat + paddedLength s.pace > 2 ^ 32 then some (.cfgAddrRange, 0x070#32)
        else none
      else none

/-- `NOP` (46_pacing.md R190): accepted in every state, no state changes. -/
def execNop (s : State) : Result := .next s

/-- `SRESET` (46_pacing.md R191): accepted in every state. -/
def execSreset (s : State) : Result := .next (sessionReset s)

/-- `CFGCHK` (46_pacing.md R192): `READY`, or the first failing check's fatal error. -/
def execCfgchk (s : State) : Result :=
  whenAccepted s.fsm.acceptsUnit s fun s =>
    match cfgError s with
    | some (e, info) => .next (raiseFatal e info s)
    | none => .next { s with fsm := .ready }

end Sys2Proof.Machine
end

