-- ==== Sys2Proof/Machine/Silence.lean ====
section
/-! DEFINITION. The silence generator (45_silence.md): the symbol count of a duration and BLANK. A silence block is a
block of symbol-0 samples (R180), not of zeros (90_conflicts.md C2). -/

namespace Sys2Proof.Machine

/-- `Blank(us) = 4 * floor(us * BR / 8 000 000)`, on unbounded integers (45_silence.md R181). -/
def blankSymbols (c : Cons) (us : Nat) : Nat := 4 * (us * c.bitRate.toNat / 8000000)

/-- Open a silence block of `us` microseconds (45_silence.md R180, R183). -/
def openSilence (kind : OutKind) (us : Nat) (s : State) : State :=
  openBlock kind .zeros (blankSymbols s.cons us) 0 s

/-- `BLANK us` (45_silence.md R182). -/
def execBlank (us : Nat) (s : State) : Result :=
  whenAccepted (s.fsm.acceptsDirect && drained s) s fun s => .next (openSilence .blank us s)

end Sys2Proof.Machine
end

