-- ==== Sys2Proof/Machine/Pacing.lean ====
section
/-! DEFINITION. The target pacing controller (46_pacing.md R193 to R198): RUN and PULL. -/

namespace Sys2Proof.Machine

/-- `RUN` (46_pacing.md R193): the padded length, the cursor at 0, `INTRO`; no block is opened. -/
def execRun (s : State) : Result :=
  whenAccepted (s.fsm.acceptsDirect && drained s) s fun s =>
    .next { s with ctl := ⟨0, 0, BitVec.ofNat 32 (paddedLength s.pace)⟩, fsm := .intro }

/-- PULL in `INTRO` (46_pacing.md R198). -/
def pullIntro (s : State) : State :=
  { openSilence .intro s.pace.introUs.toNat s with fsm := if s.ctl.padlen = 0 then .outro else .packet }

/-- PULL in `PACKET` (46_pacing.md R196): the packet at `CTL_OFFSET` is framed and its block opened; the unit is complete
when `U div PS` packets are out. -/
def pullPacket (s : State) : State :=
  { openBlock .packet .framebuf (4 * (s.cons.packetSize.toNat + 20)) 0
      (frameOf s.ctl.offset.toNat s.cons.packetSize.toNat s) with
    ctl := { s.ctl with offset := s.ctl.offset + s.cons.packetSize, pktcnt := s.ctl.pktcnt + 1 }
    fsm := if (s.ctl.pktcnt + 1).toNat = s.pace.unitSize.toNat / s.cons.packetSize.toNat then .pause else .packet }

/-- `addr = reg[APP_START] + reg[CTL_OFFSET] - U`, the address of the chunk just encoded, on unbounded integers
(46_pacing.md R197). -/
def chunkAddress (s : State) : Int := s.pace.appStart.toNat + s.ctl.offset.toNat - s.pace.unitSize.toNat

/-- `exists i < reg[SECTOR_COUNT] with reg[SECT[i]] == addr`: exact equality (46_pacing.md R197, R201). -/
def startsSector (s : State) : Bool :=
  (s.pace.sect.toList.take s.pace.sectorCount.toNat).any (fun x => decide ((x.toNat : Int) = chunkAddress s))

/-- The pause that ends the unit is the erase pause (46_pacing.md R197). -/
def erasePause (s : State) : Bool := sectorPaced s.pace && startsSector s

/-- PULL in `PAUSE` (46_pacing.md R197). -/
def pullPause (s : State) : State :=
  { openSilence (if erasePause s then .pauseErase else .pauseShort)
      (if erasePause s then s.pace.pauseEraseUs.toNat else s.pace.pauseShortUs.toNat) s with
    ctl := { s.ctl with pktcnt := 0 }
    fsm := if s.ctl.offset = s.ctl.padlen then .outro else .packet }

/-- The lookup of R197 stays inside the sector table `SECT[0 .. MAX_SECTORS)`. CFGCHK guarantees it under sector pacing
(46_pacing.md R192; log 8). -/
def sectorsFit (s : State) : Bool := !sectorPaced s.pace || decide (s.pace.sectorCount.toNat ≤ s.params.maxSectors)

/-- PULL in `OUTRO` (46_pacing.md R198): the run is done. -/
def pullOutro (s : State) : State :=
  pend irqDone { openSilence .outro s.pace.outroUs.toNat s with fsm := .done }

/-- `PULL` (46_pacing.md R194): one output block, and the controller moves on. -/
def execPull (s : State) : Result :=
  whenAccepted (s.fsm.running && drained s) s fun s =>
    match s.fsm with
    | .intro => .next (pullIntro s)
    | .packet => if frameFits s then .next (pullPacket s) else .fault .frameBufferBounds
    | .pause => if sectorsFit s then .next (pullPause s) else .fault .sectorTableBounds
    | .outro => .next (pullOutro s)
    | .idle | .ready | .done | .error => .next (raiseCmdErr .cmdSeq s)

end Sys2Proof.Machine
end

