-- ==== Sys2Proof/Machine/Dispatch.lean ====
section
/-! DEFINITION. The dispatch: one arm per command, each one call of its meaning. -/

namespace Sys2Proof.Machine

def exec (i : Instr) (s : State) : Host.Outcome State Fault Refusal :=
  match i with
  | .nop => Sys2Proof.Machine.execNop s
  | .sreset => Sys2Proof.Machine.execSreset s
  | .cfgchk => Sys2Proof.Machine.execCfgchk s
  | .run => Sys2Proof.Machine.execRun s
  | .pull => Sys2Proof.Machine.execPull s
  | .scrld => Sys2Proof.Machine.execScrld s
  | .scrb b => Sys2Proof.Machine.execScrb b s
  | .crc => Sys2Proof.Machine.execCrc s
  | .frame => Sys2Proof.Machine.execFrame s
  | .mapb b => Sys2Proof.Machine.execMapb b s
  | .mods y => Sys2Proof.Machine.execMods y s
  | .modf => Sys2Proof.Machine.execModf s
  | .blank us => Sys2Proof.Machine.execBlank us s

end Sys2Proof.Machine
end

