-- ==== Sys2Proof/Machine/Registers.lean ====
section
/-! DEFINITION. The host's register window (10_state.md R24 to R55): the map, the access classes, and what a read or a
write of every register but `CMD` does. -/

namespace Sys2Proof.Machine

/-- The registers of the map of 10_state.md R24. -/
inductive Reg where
  | id
  | cmd
  | status
  | errCode
  | errInfo
  | cmdErrCode
  | errClr
  | irqEn
  | irqPend
  | result
  | arg0
  | arg1
  | sampleRate
  | carrierFreq
  | bitRate
  | packetSize
  | scrCtrl
  | scrSeed
  | scrState
  | strategy
  | unitSize
  | pauseShortUs
  | pauseEraseUs
  | appStart
  | introUs
  | outroUs
  | imageLen
  | sectorCount
  | sampleIndexLo
  | sampleIndexHi
  | phaseAcc
  | symbolSamples
  | carrierPeriod
  | ctlOffset
  | ctlPktcnt
  | ctlPadlen
  | outKind
  | outRemain
  | outData
  | outPeek
  | outPos
  | imgPtr
  | imgData
  | imgByte
  | fbPtr
  | fbByte
  | frameLen
  /-- `SECT[i]`. -/
  | sect (i : Fin 128)
deriving DecidableEq, Repr

/-- The access classes of 10_state.md R25. -/
inductive AccessClass where
  | ro
  | free
  | cons
  | pace
  | cmd
  | w
  | w1c
  | pop
  | img
deriving DecidableEq, Repr

/-- The offsets below `0x100` (10_state.md R24). -/
def regMap : List (Nat × Reg) := [
  (0x000, .id),
  (0x004, .cmd),
  (0x008, .status),
  (0x00C, .errCode),
  (0x010, .errInfo),
  (0x014, .cmdErrCode),
  (0x018, .errClr),
  (0x01C, .irqEn),
  (0x020, .irqPend),
  (0x024, .result),
  (0x028, .arg0),
  (0x02C, .arg1),
  (0x040, .sampleRate),
  (0x044, .carrierFreq),
  (0x048, .bitRate),
  (0x04C, .packetSize),
  (0x050, .scrCtrl),
  (0x054, .scrSeed),
  (0x058, .scrState),
  (0x060, .strategy),
  (0x064, .unitSize),
  (0x068, .pauseShortUs),
  (0x06C, .pauseEraseUs),
  (0x070, .appStart),
  (0x074, .introUs),
  (0x078, .outroUs),
  (0x07C, .imageLen),
  (0x080, .sectorCount),
  (0x090, .sampleIndexLo),
  (0x094, .sampleIndexHi),
  (0x098, .phaseAcc),
  (0x09C, .symbolSamples),
  (0x0A0, .carrierPeriod),
  (0x0B0, .ctlOffset),
  (0x0B4, .ctlPktcnt),
  (0x0B8, .ctlPadlen),
  (0x0C0, .outKind),
  (0x0C4, .outRemain),
  (0x0C8, .outData),
  (0x0CC, .outPeek),
  (0x0D0, .outPos),
  (0x0E0, .imgPtr),
  (0x0E4, .imgData),
  (0x0E8, .imgByte),
  (0x0F0, .fbPtr),
  (0x0F4, .fbByte),
  (0x0F8, .frameLen)]

/-- The register at an offset, none where the window is reserved (10_state.md R24, R26; 20_memory.md R69): the map, and
`SECT[i]` at `0x200 + 4*i` for `i < MAX_SECTORS`. -/
def regAt (p : Config.Params) (offset : Nat) : Option Reg :=
  if offset < 0x200 then (regMap.find? (fun row => row.1 == offset)).map (·.2)
  else if offset < 0x200 + 4 * p.maxSectors ∧ offset % 4 = 0 then some (.sect (Fin.ofNat 128 ((offset - 0x200) / 4)))
  else none

/-- The access class of each register (10_state.md R24). -/
def Reg.accessClass : Reg → AccessClass
  | .id | .status | .errCode | .errInfo | .cmdErrCode | .result | .scrState => .ro
  | .sampleIndexLo | .sampleIndexHi | .phaseAcc | .symbolSamples | .carrierPeriod => .ro
  | .ctlOffset | .ctlPktcnt | .ctlPadlen | .outKind | .outRemain | .outPeek | .outPos | .frameLen => .ro
  | .cmd => .cmd
  | .errClr => .w
  | .irqPend => .w1c
  | .irqEn | .arg0 | .arg1 | .imgPtr | .fbPtr => .free
  | .sampleRate | .carrierFreq | .bitRate | .packetSize | .scrCtrl => .cons
  | .scrSeed | .strategy | .unitSize | .pauseShortUs | .pauseEraseUs | .appStart => .pace
  | .introUs | .outroUs | .imageLen | .sectorCount | .sect _ => .pace
  | .outData | .fbByte => .pop
  | .imgData | .imgByte => .img

/-- `OUT_KIND[3:0]` (10_state.md R53). -/
def OutKind.code : OutKind → BitVec 4
  | .none => 0#4
  | .intro => 1#4
  | .packet => 2#4
  | .pauseShort => 3#4
  | .pauseErase => 4#4
  | .outro => 5#4
  | .raw => 6#4
  | .blank => 7#4

/-- `SYMBOL_SAMPLES` (10_state.md R51). -/
def symbolSamplesReg (c : Cons) : Word :=
  if c.bitRate ≠ 0 ∧ c.sampleRate.toNat % c.bitRate.toNat = 0 then
    BitVec.ofNat 32 (c.sampleRate.toNat / c.bitRate.toNat * 2)
  else 0#32

/-- `CARRIER_PERIOD` (10_state.md R51). -/
def carrierPeriodReg (c : Cons) : Word :=
  if c.carrierFreq ≠ 0 ∧ c.sampleRate.toNat % c.carrierFreq.toNat = 0 then
    BitVec.ofNat 32 (c.sampleRate.toNat / c.carrierFreq.toNat)
  else 0#32

/-- The value of a register whose read has no side effect (10_state.md R25 to R55). `CMD` and `ERR_CLR` read 0; the four
ports and `OUT_PEEK` have a read of their own in hostReadReg. -/
def regValue (r : Reg) (s : State) : Word :=
  match r with
  | .id => 0x51530107#32
  | .cmd => 0#32
  | .status => statusWord s
  | .errCode => s.err.errCode.setWidth 32
  | .errInfo => s.err.errInfo
  | .cmdErrCode => s.err.cmdErrCode.setWidth 32
  | .errClr => 0#32
  | .irqEn => s.irq.en.setWidth 32
  | .irqPend => s.irq.pend.setWidth 32
  | .result => s.result
  | .arg0 => s.arg0
  | .arg1 => s.arg1
  | .sampleRate => s.cons.sampleRate
  | .carrierFreq => s.cons.carrierFreq
  | .bitRate => s.cons.bitRate
  | .packetSize => s.cons.packetSize
  | .scrCtrl => bit s.cons.scrEn
  | .scrSeed => s.pace.scrSeed
  | .scrState => s.session.scrState
  | .strategy => s.pace.strategy
  | .unitSize => s.pace.unitSize
  | .pauseShortUs => s.pace.pauseShortUs
  | .pauseEraseUs => s.pace.pauseEraseUs
  | .appStart => s.pace.appStart
  | .introUs => s.pace.introUs
  | .outroUs => s.pace.outroUs
  | .imageLen => s.pace.imageLen
  | .sectorCount => s.pace.sectorCount
  | .sampleIndexLo => s.session.sampleIndex.extractLsb' 0 32
  | .sampleIndexHi => s.session.sampleIndex.extractLsb' 32 32
  | .phaseAcc => s.session.phaseAcc
  | .symbolSamples => symbolSamplesReg s.cons
  | .carrierPeriod => carrierPeriodReg s.cons
  | .ctlOffset => s.ctl.offset
  | .ctlPktcnt => s.ctl.pktcnt
  | .ctlPadlen => s.ctl.padlen
  | .outKind => s.out.kind.code.setWidth 32
  | .outRemain => saturate (Sys2Proof.Machine.outRemain s)
  | .outPos => saturate s.out.pos
  | .imgPtr => s.imgPtr
  | .fbPtr => s.fbPtr
  | .frameLen => s.frameLen
  | .sect i => s.pace.sect[i]
  | .outData | .outPeek | .imgData | .imgByte | .fbByte => 0#32

/-! ### The image and frame ports (10_state.md R54, R55) -/

/-- Bytes to a little-endian word (20_memory.md R65, `IMG_DATA`). -/
def leWord (b0 b1 b2 b3 : Byte) : Word := b3 ++ b2 ++ b1 ++ b0

/-- The `n` bytes of a port access at `IMG_PTR` pass `MAX_IMAGE` (10_state.md R54). -/
def imgPortOut (s : State) (n : Nat) : Bool := decide (s.imgPtr.toNat + n > s.params.maxImage)

/-- A host read of `IMG_DATA` (10_state.md R54): raw, in every state, any pointer alignment. -/
def readImgData (s : State) : State :=
  if imgPortOut s 4 then reply 0 (raiseCmdErr .argRange s)
  else reply (leWord (s.image.read s.imgPtr.toNat) (s.image.read (s.imgPtr.toNat + 1))
      (s.image.read (s.imgPtr.toNat + 2)) (s.image.read (s.imgPtr.toNat + 3)))
    { s with imgPtr := s.imgPtr + 4 }

/-- A host read of `IMG_BYTE` (10_state.md R54). -/
def readImgByte (s : State) : State :=
  if imgPortOut s 1 then reply 0 (raiseCmdErr .argRange s)
  else reply ((s.image.read s.imgPtr.toNat).setWidth 32) { s with imgPtr := s.imgPtr + 1 }

/-- A host read of `FB_BYTE` (10_state.md R55). -/
def readFbByte (s : State) : State :=
  if s.fbPtr.toNat ≥ s.frameLen.toNat then reply 0 (raiseCmdErr .argRange s)
  else reply ((s.fb.read s.fbPtr.toNat).setWidth 32) { s with fbPtr := s.fbPtr + 1 }

/-- A host read of a register (10_state.md R25). -/
def hostReadReg (r : Reg) (s : State) : Result :=
  match r with
  | .outData => readOutData s
  | .outPeek => readOutPeek s
  | .imgData => .next (readImgData s)
  | .imgByte => .next (readImgByte s)
  | .fbByte => .next (readFbByte s)
  | r => .next (reply (regValue r s) s)

/-! ### Writes (10_state.md R25 to R27, R32, R33, R54) -/

/-- A write of the bring-up's steps 2 to 4 (70_reset_and_hazards.md R273: the configuration, the image, `IMG_PTR`)
invalidates the last CFGCHK: `if fsm in {READY, DONE}: fsm <- IDLE` (10_state.md R27). -/
def invalidate (s : State) : State := { s with fsm := if s.fsm.acceptsDirect then .idle else s.fsm }

/-- `fsm in {INTRO, PACKET, PAUSE, OUTRO, ERROR}`: the lock of 10_state.md R27. -/
def locked (s : State) : Bool := s.fsm.running || decide (s.fsm = .error)

/-- The construction register after a write, reserved bits forced to 0 (10_state.md R36 to R40). -/
def consWrite (r : Reg) (v : Word) (c : Cons) : Cons :=
  match r with
  | .sampleRate => { c with sampleRate := v }
  | .carrierFreq => { c with carrierFreq := v }
  | .bitRate => { c with bitRate := v }
  | .packetSize => { c with packetSize := v }
  | .scrCtrl => { c with scrEn := v.getLsbD 0 }
  | _ => c

/-- The pacing register after a write (10_state.md R41, R43 to R49). -/
def paceWrite (r : Reg) (v : Word) (p : Pace) : Pace :=
  match r with
  | .scrSeed => { p with scrSeed := v }
  | .strategy => { p with strategy := v }
  | .unitSize => { p with unitSize := v }
  | .pauseShortUs => { p with pauseShortUs := v }
  | .pauseEraseUs => { p with pauseEraseUs := v }
  | .appStart => { p with appStart := v }
  | .introUs => { p with introUs := v }
  | .outroUs => { p with outroUs := v }
  | .imageLen => { p with imageLen := v }
  | .sectorCount => { p with sectorCount := v }
  | .sect i => { p with sect := p.sect.set i v }
  | _ => p

/-- A FREE register after a write, in any controller state (10_state.md R25, R33, R35, R54, R55). Setting `IMG_PTR` is
part of loading an image and invalidates the last CFGCHK (70_reset_and_hazards.md R273; log 9). -/
def freeWrite (r : Reg) (v : Word) (s : State) : State :=
  match r with
  | .irqEn => { s with irq := { s.irq with en := v.setWidth 4 } }
  | .arg0 => { s with arg0 := v }
  | .arg1 => { s with arg1 := v }
  | .imgPtr => invalidate { s with imgPtr := v }
  | .fbPtr => { s with fbPtr := v }
  | _ => s

/-- A host write to the image port (10_state.md R54): the lock, then the range, then the bytes; like every write the lock
guards it returns the controller to `IDLE` (log 9). -/
def writeImage (bytes : List Byte) (s : State) : State :=
  if locked s then raiseCmdErr .locked s
  else if imgPortOut s bytes.length then raiseCmdErr .argRange s
  else invalidate { s with
    image := s.image.writeBytes s.imgPtr.toNat bytes
    imgPtr := s.imgPtr + BitVec.ofNat 32 bytes.length }

/-- The four bytes of an `IMG_DATA` write, lowest address first (10_state.md R54). -/
def leBytes (v : Word) : List Byte := [v.extractLsb' 0 8, v.extractLsb' 8 8, v.extractLsb' 16 8, v.extractLsb' 24 8]

/-- A host write of a register other than `CMD`, by access class (10_state.md R25). -/
def hostWriteReg (r : Reg) (v : Word) (s : State) : State :=
  match r.accessClass with
  | .ro | .pop => raiseCmdErr .roWrite s
  | .free => freeWrite r v s
  | .cons =>
    if locked s || s.session.started then raiseCmdErr .locked s
    else invalidate { s with cons := consWrite r v s.cons }
  | .pace =>
    if locked s then raiseCmdErr .locked s
    else invalidate { s with pace := paceWrite r v s.pace }
  | .w => if v.getLsbD 0 then { s with err := { s.err with cmdErr := false, cmdErrCode := 0 } } else s
  | .w1c => { s with irq := { s.irq with pend := s.irq.pend &&& ~~~(v.setWidth 4) } }
  | .img => if r = .imgData then writeImage (leBytes v) s else writeImage [v.extractLsb' 0 8] s
  | .cmd => s

end Sys2Proof.Machine
end

