-- ==== Sys2Proof/Machine/Bus.lean ====
section
/-! DEFINITION. One host event: a read, a write (a write of `CMD` decodes and executes a command, 30_encoding.md R84), or
the platform's hardware reset. -/

namespace Sys2Proof.Machine

/-- `CMD`, the offset a command word is written to (10_state.md R24, R29). -/
def cmdOffset : BitVec 12 := 0x004#12

/-- A host write of `w` to `CMD` (30_encoding.md R84): an illegal word raises `ILLEGAL_CMD`; a legal one executes, its
state checks in its meaning. -/
def writeCommand (w : Word) (s : State) : Result :=
  match decode w with
  | .ok i => exec i s
  | .error _ => .next (raiseCmdErr .illegalCmd s)

/-- A performed host read (10_state.md R25); a reserved offset reads 0 (R26). -/
def hostRead (offset : BitVec 12) (s : State) : Result :=
  match regAt s.params offset.toNat with
  | some r => hostReadReg r s
  | none => .next (reply 0 s)

/-- A performed host write (10_state.md R25); one to a reserved offset is ignored (R26). -/
def hostWrite (offset : BitVec 12) (v : Word) (s : State) : Result :=
  match regAt s.params offset.toNat with
  | some .cmd => writeCommand v s
  | some r => .next (hostWriteReg r v s)
  | none => .next s

/-- One event. An access of another width, or at an offset not a multiple of 4, "is not performed: a write is ignored, a
read returns 0, and the access raises `CmdErr(BUS)`" (20_memory.md R66). -/
def perform (e : HostEvent) (s : State) : Result :=
  match e with
  | .read width offset =>
    if (HostEvent.read width offset).wellFormed then hostRead offset s else .next (reply 0 (raiseCmdErr .bus s))
  | .write width offset v =>
    if (HostEvent.write width offset v).wellFormed then hostWrite offset v s else .next (raiseCmdErr .bus s)
  | .hardReset image fb => .next (hardReset image fb s)

/-- The host's next event, and the state with it taken from the list (log 1). -/
def fetch (s : State) : Option (HostEvent × State) :=
  match s.pending with
  | [] => none
  | e :: rest => some (e, { s with pending := rest })

/-- The host issues the command word `w` next. -/
def issueCommand (w : Word) (s : State) : State := { s with pending := .write .w32 cmdOffset w :: s.pending }

end Sys2Proof.Machine
end

