-- ==== Sys2Proof/Machine/Step.lean ====
section
/-! DEFINITION. One step of the machine: the host's next event, performed to completion (20_memory.md R71). -/

namespace Sys2Proof.Machine

/-- One step. With no event waiting "it does nothing; all state is kept indefinitely" (60_exceptions.md R246). -/
def step (s : State) : Host.Outcome State Fault Refusal :=
  match fetch s with
  | some (e, t) => perform e t
  | none => .next s

/-- `s` with the command word of a row's bits as the host's next access (log 1): the core fetches nothing, its program is
the sequence of host accesses (20_memory.md R61). -/
def State.withFetchWord (s : State) (nbits w : Nat) : State := issueCommand (tableWord nbits w) s

end Sys2Proof.Machine
end

