-- ==== Sys2Proof/Machine/Pseudo.lean ====
section
/-! DEFINITION. Programs of host accesses and the pseudo-instructions of 30_encoding.md R87, R88: the three that are fixed
lists, and the three loops, each bounded by a count of rounds. -/

namespace Sys2Proof.Machine

/-- `wr NAME, v`, the register given by its offset (30_encoding.md R87). -/
def wr (offset : BitVec 12) (v : Word) : HostEvent := .write .w32 offset v

/-- `rd NAME` (30_encoding.md R87). -/
def rd (offset : BitVec 12) : HostEvent := .read .w32 offset

/-- A command: a write of its word to `CMD` (30_encoding.md R87). -/
def cmd (i : Instr) : HostEvent := wr cmdOffset (encode i)

/-- `STATUS` (10_state.md R24). -/
def statusOffset : BitVec 12 := 0x008#12
/-- `OUT_DATA` (10_state.md R24). -/
def outDataOffset : BitVec 12 := 0x0C8#12
/-- `IMG_PTR` (10_state.md R24). -/
def imgPtrOffset : BitVec 12 := 0x0E0#12
/-- `IMG_BYTE` (10_state.md R24). -/
def imgByteOffset : BitVec 12 := 0x0E8#12
/-- `IMAGE_LEN` (10_state.md R24). -/
def imageLenOffset : BitVec 12 := 0x07C#12
/-- `ARG0` (10_state.md R24). -/
def arg0Offset : BitVec 12 := 0x028#12
/-- `ARG1` (10_state.md R24). -/
def arg1Offset : BitVec 12 := 0x02C#12

/-- `CRCAT a, n` (30_encoding.md R88). -/
def crcAt (a n : Word) : Program := [wr arg0Offset a, wr arg1Offset n, cmd .crc]

/-- `FRAMEAT a, n` (30_encoding.md R88). -/
def frameAt (a n : Word) : Program := [wr arg0Offset a, wr arg1Offset n, cmd .frame]

/-- `LOADIMG b0 b1 ... bm` (30_encoding.md R88). -/
def loadImg (bytes : List Byte) : Program :=
  wr imgPtrOffset 0 :: bytes.map (fun b => wr imgByteOffset (b.setWidth 32)) ++
    [wr imageLenOffset (BitVec.ofNat 32 bytes.length)]

/-- One outcome, then the rest of a program from its state. -/
def andThen (r : Result) (f : State → Result) : Result :=
  match r with
  | .next s => f s
  | .fault e => .fault e
  | .refused e => .refused e

/-- The events of a program performed in order (20_memory.md R71). -/
def runProgram : Program → State → Result
  | [], s => .next s
  | e :: rest, s => andThen (perform e s) (runProgram rest)

/-- The word the host's last read returned. -/
def lastReply (s : State) : Word := s.replies.getLastD 0

/-- `DRAIN`: "repeat `rd OUT_DATA` while `rd STATUS` has bit 3 (`OUT_VALID`) set" (30_encoding.md R88), at most `rounds`
times. -/
def drain : Nat → State → Result
  | 0, s => .next s
  | rounds + 1, s =>
    andThen (perform (rd statusOffset) s) fun s =>
      if (lastReply s).getLsbD 3 then andThen (perform (rd outDataOffset) s) (drain rounds) else .next s

/-- `NEXT`: `PULL` ; `DRAIN` (30_encoding.md R88). -/
def pullAndDrain (rounds : Nat) (s : State) : Result := andThen (perform (cmd .pull) s) (drain rounds)

/-- `NEXT` repeated until `STATUS[2:0] == 6` (30_encoding.md R88), at most `pulls` times. -/
def nextUntilDone (rounds : Nat) : Nat → State → Result
  | 0, s => .next s
  | pulls + 1, s =>
    andThen (pullAndDrain rounds s) fun s =>
      andThen (perform (rd statusOffset) s) fun s =>
        if (lastReply s).extractLsb' 0 3 = 6#3 then .next s else nextUntilDone rounds pulls s

/-- `ENCODE`: `RUN`, `NEXT` until `DONE`, `DRAIN` (30_encoding.md R88). -/
def encodeRun (rounds pulls : Nat) (s : State) : Result :=
  andThen (perform (cmd .run) s) fun s => andThen (nextUntilDone rounds pulls s) (drain rounds)

end Sys2Proof.Machine
end

