-- ==== Sys2Proof/Machine/Signal.lean ====
section
/-! DEFINITION. The real signal a sample stands for (44_modulator.md R151 to R153). The step never computes a real: it
hands `(y, k, SR)` to RENDER (R158), and these definitions say which real number that triple determines. -/

namespace Sys2Proof.Machine

/-- A bit's bipolar level, "`2*bit - 1`" (43_mapper.md R143). -/
noncomputable def bipolar (b : Bool) : ℝ := if b then 1 else -1

/-- `be(y)`, the even baseband value (44_modulator.md R151). -/
noncomputable def basebandEven (y : Symbol) : ℝ := bipolar (y.getLsbD 0) / Real.sqrt 2

/-- `bo(y)`, the odd baseband value (44_modulator.md R151). -/
noncomputable def basebandOdd (y : Symbol) : ℝ := bipolar (y.getLsbD 1) / Real.sqrt 2

/-- `theta = 2 * pi * k / SR` (44_modulator.md R152). -/
noncomputable def phaseAngle (k sr : Nat) : ℝ := 2 * Real.pi * k / sr

/-- `v = be(y) * sin(theta) + bo(y) * cos(theta)`, the value of a sample (44_modulator.md R152). -/
noncomputable def sampleValue (y : Symbol) (k sr : Nat) : ℝ :=
  basebandEven y * Real.sin (phaseAngle k sr) + basebandOdd y * Real.cos (phaseAngle k sr)

/-- `psi(y)`, the constellation phase of a symbol (44_modulator.md R153). -/
noncomputable def symbolPhase (y : Symbol) : ℝ :=
  match y.getLsbD 1, y.getLsbD 0 with
  | true, true => Real.pi / 4
  | true, false => 3 * Real.pi / 4
  | false, false => 5 * Real.pi / 4
  | false, true => 7 * Real.pi / 4

/-- The value of the sample the next pop produces, for its symbol `y`. -/
noncomputable def nextSampleValue (s : State) (y : Symbol) : ℝ :=
  sampleValue y s.session.phaseAcc.toNat s.cons.sampleRate.toNat

/-- The real number of a finite IEEE 754 binary32 word: sign bit 31, exponent in bits [30:23], fraction in bits [22:0]
(44_modulator.md R158); none for an infinity or a NaN. -/
noncomputable def binary32Value (w : Word) : Option ℝ :=
  let sign : ℝ := if w.getLsbD 31 then -1 else 1
  let e := (w.extractLsb' 23 8).toNat
  let f := (w.extractLsb' 0 23).toNat
  if e = 255 then none
  else if e = 0 then some (sign * f / 2 ^ 149)
  else some (sign * ((2 ^ 23 + f : ℕ) : ℝ) * 2 ^ e / 2 ^ 150)

/-- `w` is the binary32 word of `v` "rounded to nearest, ties to even", and of an exact 0 the word `+0`
(44_modulator.md R158). -/
def roundsToNearestEven (w : Word) (v : ℝ) : Prop :=
  (v = 0 → w = 0) ∧
  ∃ x, binary32Value w = some x ∧
    ∀ w' x', binary32Value w' = some x' →
      |x - v| ≤ |x' - v| ∧ (|x - v| = |x' - v| → x ≠ x' → w.getLsbD 0 = false)

/-- The spec's reference choice of RENDER (44_modulator.md R158, 92_eei_decisions.md D11), as a property of a renderer. The
model's RENDER is any function of its three arguments (log 4). -/
def IsReferenceRender (f : Symbol → Word → Word → Word) : Prop :=
  ∀ y k sr, sr ≠ 0#32 → roundsToNearestEven (f y k sr) (sampleValue y k.toNat sr.toNat)

end Sys2Proof.Machine
end

