-- ==== Sys2Proof/Safety.lean ====
section
/-! DEFINITION. What a safe state of the core is, in the terms claims use: the invariants the rules imply, and the
relations that compare two sessions or count a run's remaining blocks. -/

namespace Sys2Proof.Machine

/-! ### Invariants -/

/-- Both memories are in canonical form and inside their spaces (20_memory.md R60, R62; 10_state.md R55). -/
def MemoriesCanonical (s : State) : Prop :=
  s.image.wf s.params.maxImage = true ∧ s.fb.wf (s.params.maxPacket + 20) = true

/-- Window places beyond the sector table hold nothing: they are reserved (20_memory.md R69). -/
def SectorTailClear (s : State) : Prop :=
  ∀ i : Fin 128, s.params.maxSectors ≤ i.val → s.pace.sect[i] = 0

/-- In every state but `IDLE` and `ERROR` the configuration passes CFGCHK's checks (10_state.md R23, R27). -/
def ConfigValidated (s : State) : Prop := s.fsm ≠ .idle → s.fsm ≠ .error → cfgError s = none

/-- The frame held fits the frame buffer (10_state.md R55). -/
def FrameHeldFits (s : State) : Prop := s.frameLen.toNat ≤ s.params.maxPacket + 20

/-- `OUT_POS` never passes `OUT_NSYM * S`, and a sample popped has started the session (44_modulator.md R157). -/
def BlockBounded (s : State) : Prop :=
  s.out.pos ≤ blockSamples s.cons s.out ∧ (s.out.pos ≠ 0 → s.session.started = true)

/-- Every sample of a block still to be popped has a symbol: a block without source is empty, and a frame block's symbols
lie in the frame held unless the block is drained for good (43_mapper.md R142, 44_modulator.md R156). -/
def BlockBacked (s : State) : Prop :=
  (s.out.src = .none → s.out.nsym = 0) ∧
  (s.out.src = .framebuf →
    s.out.nsym ≤ 4 * s.frameLen.toNat ∨
    (s.session.started = true ∧ blockSamples s.cons s.out ≤ s.out.pos))

/-- `k = (FC * N) mod SR` at every step of a session, and both are 0 before the session has started (44_modulator.md
R157, 10_state.md R21). -/
def PhaseLocked (s : State) : Prop :=
  (s.session.started = false → s.session.sampleIndex = 0 ∧ s.session.phaseAcc = 0) ∧
  (s.cons.sampleRate ≠ 0 →
    s.session.phaseAcc.toNat = s.cons.carrierFreq.toNat * s.session.sampleIndex.toNat % s.cons.sampleRate.toNat)

/-- `N` and the position in the open block agree modulo `S`, so every block and every symbol starts at a multiple of `S`
(44_modulator.md R161). An error state, left only by a new session, is exempt: entering it discards the block. -/
def SymbolAligned (s : State) : Prop :=
  s.fsm ≠ .error →
    s.session.sampleIndex.toNat % symbolSamples s.cons = s.out.pos % symbolSamples s.cons

/-- A fatal error is recorded exactly in `ERROR` (10_state.md R31), and `CMD_ERR` exactly with its code (R32). -/
def ErrorsRecorded (s : State) : Prop :=
  (s.fsm = .error ↔ s.err.errCode ≠ 0) ∧ (s.err.cmdErr = true ↔ s.err.cmdErrCode ≠ 0)

/-- The controller's cursor in a run (46_pacing.md R193 to R198): the padded length is a whole number of units, the
offset a whole number of packets that never passes it, and the packet count the packets of the current unit. -/
def CursorOnTrack (s : State) : Prop :=
  let u := s.pace.unitSize.toNat
  let ps := s.cons.packetSize.toNat
  let pl := s.ctl.padlen.toNat
  let off := s.ctl.offset.toNat
  let cnt := s.ctl.pktcnt.toNat
  (s.fsm.running = true → pl = paddedLength s.pace ∧ off ≤ pl) ∧
  (s.fsm = .intro → off = 0 ∧ cnt = 0) ∧
  (s.fsm = .packet → off % u = cnt * ps ∧ cnt < u / ps ∧ off < pl) ∧
  (s.fsm = .pause → off % u = 0 ∧ cnt = u / ps ∧ u ≤ off) ∧
  (s.fsm = .outro → off = pl ∧ cnt = 0)

/-- The invariant of the machine: what every state reached from reset satisfies. -/
structure Inv (s : State) : Prop where
  memories : MemoriesCanonical s
  sectors : SectorTailClear s
  validated : ConfigValidated s
  frameHeld : FrameHeldFits s
  bounded : BlockBounded s
  backed : BlockBacked s
  phase : PhaseLocked s
  aligned : SymbolAligned s
  errors : ErrorsRecorded s
  cursor : CursorOnTrack s

/-! ### Safe runs -/

/-- Output the host may trust: no fatal error has been taken in the session (60_exceptions.md R232, 70 R275 H11). -/
def Trusted (s : State) : Prop := s.fsm ≠ .error

/-- The host's next event is SRESET or a hardware reset, the two that start a session (60_exceptions.md R235). -/
def startsSession : HostEvent → Bool
  | .hardReset _ _ => true
  | .write width offset v =>
    (HostEvent.write width offset v).wellFormed && decide (offset = cmdOffset) && decide (v = encode .sreset)
  | .read _ _ => false

/-! ### Comparing configurations, sessions and runs -/

/-- A legal configuration, in the words of 10_state.md R36 to R49 and the invariants of 44_modulator.md R150: what CFGCHK
accepts (46_pacing.md R192). -/
structure LegalConfig (s : State) : Prop where
  strategy : s.pace.strategy.toNat < 2
  rate_pos : 0 < s.cons.sampleRate.toNat
  carrier_pos : 0 < s.cons.carrierFreq.toNat
  bit_pos : 0 < s.cons.bitRate.toNat
  packet_pos : 0 < s.cons.packetSize.toNat
  unit_pos : 0 < s.pace.unitSize.toNat
  carrier_dvd : s.cons.carrierFreq.toNat ∣ s.cons.sampleRate.toNat
  bit_dvd : s.cons.bitRate.toNat ∣ s.cons.sampleRate.toNat
  symbol_lt : s.cons.sampleRate.toNat / s.cons.bitRate.toNat * 2 < 2 ^ 32
  periods :
    s.cons.sampleRate.toNat / s.cons.bitRate.toNat * 2 ∣ s.cons.sampleRate.toNat / s.cons.carrierFreq.toNat ∨
    s.cons.sampleRate.toNat / s.cons.carrierFreq.toNat ∣ s.cons.sampleRate.toNat / s.cons.bitRate.toNat * 2
  packet_fits : s.cons.packetSize.toNat ≤ s.params.maxPacket
  packet_le_unit : s.cons.packetSize.toNat ≤ s.pace.unitSize.toNat
  packet_dvd_unit : s.cons.packetSize.toNat ∣ s.pace.unitSize.toNat
  image_fits : s.pace.imageLen.toNat ≤ s.params.maxImage
  padded_lt : paddedLength s.pace < 2 ^ 32
  sectors : s.pace.strategy.toNat = 1 →
    s.pace.sectorCount.toNat ≤ s.params.maxSectors ∧ s.pace.appStart.toNat + paddedLength s.pace ≤ 2 ^ 32

/-- What an encoding depends on: the sizes, the configuration and the image (46_pacing.md R203). -/
structure SameInputs (s t : State) : Prop where
  params : s.params = t.params
  cons : s.cons = t.cons
  pace : s.pace = t.pace
  image : s.image = t.image

/-- Two machines at the same point of the same session: everything a command other than CRC and FRAME, or a sample pop,
can depend on (46_pacing.md R203). The argument registers, pointers, interrupts, sticky command error, frame buffer beyond
`FRAME_LEN`, and the host's lists may differ. -/
structure SameSession (s t : State) : Prop extends SameInputs s t where
  session : s.session = t.session
  fsm : s.fsm = t.fsm
  ctl : s.ctl = t.ctl
  out : s.out = t.out
  result : s.result = t.result
  frameLen : s.frameLen = t.frameLen
  frame : ∀ i, i < s.frameLen.toNat → s.fb.read i = t.fb.read i
  errCode : s.err.errCode = t.err.errCode
  errInfo : s.err.errInfo = t.err.errInfo

/-- The blocks a run has still to open: 2 + `PL div PS` + `PL div U` in all (46_pacing.md R199). -/
def pullsLeft (s : State) : Nat :=
  let u := s.pace.unitSize.toNat
  let ps := s.cons.packetSize.toNat
  let left := s.ctl.padlen.toNat - s.ctl.offset.toNat
  match s.fsm with
  | .intro => 2 + left / ps + left / u
  | .packet => 1 + left / ps + (left + u - 1) / u
  | .pause => 2 + left / ps + left / u
  | .outro => 1
  | .idle | .ready | .done | .error => 0

/-- The words of the next `n` samples of the open block, when all have a symbol: sample `i` is the rendering of its symbol
at phase `(k + i * FC) mod SR` (44_modulator.md R152, R157). -/
def blockWords (s : State) (n : Nat) : List Word :=
  (List.range n).map fun i =>
    Config.render ((blockSym s (s.out.pos + i)).getD 0)
      (BitVec.ofNat 32 ((s.session.phaseAcc.toNat + i * s.cons.carrierFreq.toNat) % s.cons.sampleRate.toNat))
      s.cons.sampleRate

end Sys2Proof.Machine
end

