-- ==== Sys2Proof/Certificates/Slice0/Obligations.lean ====
section
/-! DEFINITION. The statements for the provers: what the numbered rules of the spec say the QSE core does. Each docstring
names the rule it formalises. -/

open Sys2Proof Sys2Proof.Machine

/-! ### Encoding -/

/-- 30_encoding.md R80 to R82: no bit of a command's encoding is dropped. -/
def Obligations.DecodingAnEncodedCommandGivesIt : Prop :=
  ∀ i : Instr, i.wellFormed = true → decode (encode i) = .ok i

/-- 30_encoding.md R80 to R82: a word has one meaning, and it is the encoding of that meaning. -/
def Obligations.EncodingADecodedWordGivesIt : Prop :=
  ∀ (w : Word) (i : Instr), decode w = .ok i → encode i = w ∧ i.wellFormed = true

/-- 30_encoding.md R85: the legal words by opcode and reserved bits; every other word raises ILLEGAL_CMD and changes
nothing else; every legal word is one of the thirteen commands; NOP is the only no-operation. -/
def Obligations.ReservedWordsAreIllegal : Prop :=
  (∀ (w : Word) (s : State),
    if (w.toNat / 2 ^ 24 ∈ [0x00, 0x01, 0x02, 0x03, 0x04, 0x10, 0x20, 0x21, 0x41] ∧ w.toNat % 2 ^ 24 = 0) ∨
       (w.toNat / 2 ^ 24 ∈ [0x11, 0x30] ∧ w.toNat % 2 ^ 24 < 2 ^ 8) ∨
       (w.toNat / 2 ^ 24 = 0x40 ∧ w.toNat % 2 ^ 24 < 2 ^ 2) ∨
       w.toNat / 2 ^ 24 = 0x50
    then ∃ i, decode w = .ok i ∧ perform (wr 0x004#12 w) s = exec i s
    else perform (wr 0x004#12 w) s =
      .next { s with
        err := { s.err with cmdErr := true, cmdErrCode := 0x20#8 }
        irq := { s.irq with pend := s.irq.pend ||| 0b1000#4 } }) ∧
  (∀ i : Instr, (∀ s, exec i s = .next s) ↔ i = .nop)

/-- 30_encoding.md R89, its examples. -/
def Obligations.ExampleWordsDecode : Prop :=
  decode 0x01000000#32 = .ok .sreset ∧
  decode 0x02000000#32 = .ok .cfgchk ∧
  decode 0x03000000#32 = .ok .run ∧
  decode 0x04000000#32 = .ok .pull ∧
  decode 0x11000041#32 = .ok (.scrb 0x41#8) ∧
  decode 0x300000C9#32 = .ok (.mapb 0xC9#8) ∧
  decode 0x40000003#32 = .ok (.mods 3#2) ∧
  decode 0x5000EA60#32 = .ok (.blank 60000) ∧
  decode 0x11000141#32 = .error .reservedBits ∧
  decode 0x05000000#32 = .error .reservedOpcode

/-! ### The step and the host's accesses -/

/-- 20_memory.md R71, 30_encoding.md R84, 60_exceptions.md R246: a step performs the host's next event and nothing else; a
legal word written to CMD runs its command; with no event the core does nothing. -/
def Obligations.StepRunsTheNextHostEvent : Prop :=
  ∀ s : State,
    (s.pending = [] → step s = .next s) ∧
    (∀ e rest, s.pending = e :: rest → step s = perform e { s with pending := rest }) ∧
    (∀ w i rest, s.pending = .write .w32 0x004#12 w :: rest → decode w = .ok i →
      step s = exec i { s with pending := rest }) ∧
    (∀ w i, decode (BitVec.ofNat 32 w) = .ok i → s.pending = [] →
      step (s.withFetchWord 32 w) = exec i s)

/-- 20_memory.md R66: an access of another width, or at an offset that is no multiple of 4, is not performed: a write is
ignored, a read returns 0, and it raises BUS. -/
def Obligations.MalformedAccessesRaiseBus : Prop :=
  ∀ (width : Width) (offset : BitVec 12) (v : Word) (s : State),
    (width ≠ .w32 ∨ offset.toNat % 4 ≠ 0) →
    perform (.write width offset v) s =
      .next { s with
        err := { s.err with cmdErr := true, cmdErrCode := 0x25#8 }
        irq := { s.irq with pend := s.irq.pend ||| 0b1000#4 } } ∧
    perform (.read width offset) s =
      .next { s with
        err := { s.err with cmdErr := true, cmdErrCode := 0x25#8 }
        irq := { s.irq with pend := s.irq.pend ||| 0b1000#4 }
        replies := s.replies ++ [0#32] }

/-- 10_state.md R26 with 20_memory.md R69: the reserved offsets, and the reserved bits of the listed registers, read-only
ones included (R30 to R33, R40, R53). R26 lets a model refuse a program that touches reserved space: that this one performs
every such access is the model's choice (log 11). -/
def Obligations.ReservedSpaceReadsZeroAndIgnoresWrites : Prop :=
  (∀ (offset : BitVec 12) (v : Word) (s : State),
    offset.toNat % 4 = 0 →
    (offset.toNat ∈ [0x030, 0x034, 0x038, 0x03C, 0x05C, 0x084, 0x088, 0x08C, 0x0A4, 0x0A8, 0x0AC, 0x0BC, 0x0D4, 0x0D8,
        0x0DC, 0x0EC, 0x0FC] ∨
      (0x100 ≤ offset.toNat ∧ offset.toNat < 0x200) ∨ 0x200 + 4 * s.params.maxSectors ≤ offset.toNat) →
    perform (rd offset) s = .next { s with replies := s.replies ++ [0#32] } ∧
    perform (wr offset v) s = .next s) ∧
  ∀ (offset : BitVec 12) (kept v : Word) (s : State),
    (offset, kept) ∈ ([(0x008#12, 0x1FF#32), (0x00C#12, 0xFF#32), (0x014#12, 0xFF#32), (0x018#12, 0x1#32),
      (0x01C#12, 0xF#32), (0x020#12, 0xF#32), (0x050#12, 0x1#32), (0x0C0#12, 0xF#32),
      (0x0CC#12, 0x80000003#32)] : List (BitVec 12 × Word)) →
    perform (wr offset v) s = perform (wr offset (v &&& kept)) s ∧
    (∀ t, perform (rd offset) s = .next t → ∃ w, t = { s with replies := s.replies ++ [w] } ∧ w &&& ~~~kept = 0#32) ∧
    (offset ≠ 0x0CC#12 → ∃ t, perform (rd offset) s = .next t)

/-- 10_state.md R24, R25, R28 to R50, R52 to R55, 20_memory.md R68: a read of every register without a side effect returns
its state element (or the constant 0 of CMD and ERR_CLR) in every state and changes nothing; OUT_REMAIN and OUT_POS
saturate; a write does not reach ID. STATUS, the two rate registers, OUT_PEEK and the ports have statements of their own. -/
def Obligations.RegisterReadsReturnTheirState : Prop :=
  ∀ s : State,
    let kind : Nat := match s.out.kind with
      | .none => 0 | .intro => 1 | .packet => 2 | .pauseShort => 3 | .pauseErase => 4 | .outro => 5 | .raw => 6 | .blank => 7
    let remain : Nat := s.out.nsym * symbolSamples s.cons - s.out.pos
    (∀ (offset : BitVec 12) (w : Word), (offset, w) ∈ ([
        (0x000#12, 0x51530107#32), (0x004#12, 0#32),
        (0x00C#12, s.err.errCode.setWidth 32), (0x010#12, s.err.errInfo),
        (0x014#12, s.err.cmdErrCode.setWidth 32), (0x018#12, 0#32),
        (0x01C#12, s.irq.en.setWidth 32), (0x020#12, s.irq.pend.setWidth 32),
        (0x024#12, s.result), (0x028#12, s.arg0), (0x02C#12, s.arg1),
        (0x040#12, s.cons.sampleRate), (0x044#12, s.cons.carrierFreq), (0x048#12, s.cons.bitRate),
        (0x04C#12, s.cons.packetSize), (0x050#12, if s.cons.scrEn then 1#32 else 0#32),
        (0x054#12, s.pace.scrSeed), (0x058#12, s.session.scrState), (0x060#12, s.pace.strategy),
        (0x064#12, s.pace.unitSize), (0x068#12, s.pace.pauseShortUs), (0x06C#12, s.pace.pauseEraseUs),
        (0x070#12, s.pace.appStart), (0x074#12, s.pace.introUs), (0x078#12, s.pace.outroUs),
        (0x07C#12, s.pace.imageLen), (0x080#12, s.pace.sectorCount),
        (0x090#12, BitVec.ofNat 32 (s.session.sampleIndex.toNat % 2 ^ 32)),
        (0x094#12, BitVec.ofNat 32 (s.session.sampleIndex.toNat / 2 ^ 32)), (0x098#12, s.session.phaseAcc),
        (0x0B0#12, s.ctl.offset), (0x0B4#12, s.ctl.pktcnt), (0x0B8#12, s.ctl.padlen),
        (0x0C0#12, BitVec.ofNat 32 kind),
        (0x0C4#12, if remain < 2 ^ 32 then BitVec.ofNat 32 remain else 0xFFFFFFFF#32),
        (0x0D0#12, if s.out.pos < 2 ^ 32 then BitVec.ofNat 32 s.out.pos else 0xFFFFFFFF#32),
        (0x0E0#12, s.imgPtr), (0x0F0#12, s.fbPtr), (0x0F8#12, s.frameLen)] : List (BitVec 12 × Word)) →
      perform (rd offset) s = .next { s with replies := s.replies ++ [w] }) ∧
    (∀ i : Fin 128, i.val < s.params.maxSectors →
      perform (rd (BitVec.ofNat 12 (0x200 + 4 * i.val))) s = .next { s with replies := s.replies ++ [s.pace.sect[i]] }) ∧
    ∀ v, perform (wr 0x000#12 v) s = .next { s with
      err := { s.err with cmdErr := true, cmdErrCode := 0x26#8 }
      irq := { s.irq with pend := s.irq.pend ||| 0b1000#4 } }

/-- 10_state.md R30: every bit of STATUS, and its value after hardware reset. -/
def Obligations.StatusBitsReadOtherState : Prop :=
  (∀ s : State,
    perform (rd 0x008#12) s = .next { s with replies := s.replies ++ [statusWord s] } ∧
    ((statusWord s).extractLsb' 0 3).toNat =
      (match s.fsm with
        | .idle => 0 | .ready => 1 | .intro => 2 | .packet => 3 | .pause => 4 | .outro => 5 | .done => 6 | .error => 7) ∧
    (statusWord s).getLsbD 3 = decide (outRemain s ≠ 0) ∧
    (statusWord s).getLsbD 4 = decide (s.fsm = .error) ∧
    (statusWord s).getLsbD 5 = s.err.cmdErr ∧
    (statusWord s).getLsbD 6 = s.session.started ∧
    (statusWord s).getLsbD 7 = decide (s.frameLen ≠ 0) ∧
    (statusWord s).getLsbD 8 = decide (s.irq.pend &&& s.irq.en ≠ 0#4) ∧
    (statusWord s).extractLsb' 9 23 = 0#23) ∧
  (∀ p image fb, statusWord (State.powerOn p image fb) = 0#32)

/-- 10_state.md R51: SYMBOL_SAMPLES and CARRIER_PERIOD, and that they hold S and P under a legal configuration. -/
def Obligations.RateRegistersAreCombinational : Prop :=
  ∀ s : State,
    let sr := s.cons.sampleRate.toNat
    let fc := s.cons.carrierFreq.toNat
    let br := s.cons.bitRate.toNat
    perform (rd 0x09C#12) s =
      .next { s with replies := s.replies ++
        [if br ≠ 0 ∧ sr % br = 0 then BitVec.ofNat 32 (sr / br * 2 % 2 ^ 32) else 0#32] } ∧
    perform (rd 0x0A0#12) s =
      .next { s with replies := s.replies ++ [if fc ≠ 0 ∧ sr % fc = 0 then BitVec.ofNat 32 (sr / fc) else 0#32] } ∧
    (LegalConfig s →
      (symbolSamplesReg s.cons).toNat = symbolSamples s.cons ∧ (carrierPeriodReg s.cons).toNat = carrierPeriod s.cons)

/-- 10_state.md R24, R25: every RO and POP register refuses a write with RO_WRITE, in every state. -/
def Obligations.ReadOnlyRegistersRefuseWrites : Prop :=
  ∀ (offset : BitVec 12) (v : Word) (s : State),
    offset.toNat ∈ [0x000, 0x008, 0x00C, 0x010, 0x014, 0x024, 0x058, 0x090, 0x094, 0x098, 0x09C, 0x0A0, 0x0B0, 0x0B4, 0x0B8,
      0x0C0, 0x0C4, 0x0C8, 0x0CC, 0x0D0, 0x0F4, 0x0F8] →
    perform (wr offset v) s =
      .next { s with
        err := { s.err with cmdErr := true, cmdErrCode := 0x26#8 }
        irq := { s.irq with pend := s.irq.pend ||| 0b1000#4 } }

/-- 10_state.md R24, R25, R27, R36 to R49: a CONS or PACE write, at its offset of R24, is refused with LOCKED while running,
in ERROR, and, for CONS, once the session has started; otherwise exactly its register takes the value with its reserved bits
0, READY and DONE return to IDLE, and nothing else changes. -/
def Obligations.ConfigurationWritesObeyTheLock : Prop :=
  ∀ (v : Word) (s : State),
    let busy : Bool := decide (s.fsm ∈ [Fsm.intro, .packet, .pause, .outro, .error])
    let refused : Result := .next { s with
      err := { s.err with cmdErr := true, cmdErrCode := 0x24#8 }
      irq := { s.irq with pend := s.irq.pend ||| 0b1000#4 } }
    let unchecked : Fsm := if s.fsm = .ready ∨ s.fsm = .done then .idle else s.fsm
    (∀ (offset : BitVec 12) (c : Cons), (offset, c) ∈ ([
        (0x040#12, { s.cons with sampleRate := v }), (0x044#12, { s.cons with carrierFreq := v }),
        (0x048#12, { s.cons with bitRate := v }), (0x04C#12, { s.cons with packetSize := v }),
        (0x050#12, { s.cons with scrEn := v.getLsbD 0 })] : List (BitVec 12 × Cons)) →
      perform (wr offset v) s =
        if busy = true ∨ s.session.started = true then refused else .next { s with cons := c, fsm := unchecked }) ∧
    (∀ (offset : BitVec 12) (p : Pace), (offset, p) ∈ ([
        (0x054#12, { s.pace with scrSeed := v }), (0x060#12, { s.pace with strategy := v }),
        (0x064#12, { s.pace with unitSize := v }), (0x068#12, { s.pace with pauseShortUs := v }),
        (0x06C#12, { s.pace with pauseEraseUs := v }), (0x070#12, { s.pace with appStart := v }),
        (0x074#12, { s.pace with introUs := v }), (0x078#12, { s.pace with outroUs := v }),
        (0x07C#12, { s.pace with imageLen := v }), (0x080#12, { s.pace with sectorCount := v })] :
        List (BitVec 12 × Pace)) →
      perform (wr offset v) s = if busy = true then refused else .next { s with pace := p, fsm := unchecked }) ∧
    ∀ i : Fin 128, i.val < s.params.maxSectors →
      perform (wr (BitVec.ofNat 12 (0x200 + 4 * i.val)) v) s =
        if busy = true then refused
        else .next { s with pace := { s.pace with sect := s.pace.sect.set i v }, fsm := unchecked }

/-- 10_state.md R54, 20_memory.md R65: an IMG_DATA write in a state that accepts it stores the four bytes little-endian at
IMG_PTR, whatever its alignment, and moves IMG_PTR; every other image byte reads as before. That the write leaves READY and
DONE is log 9's reading of 10_state.md R27 and 70_reset_and_hazards.md R273. -/
def Obligations.ImageWritesStoreLittleEndian : Prop :=
  ∀ (v : Word) (s : State),
    MemoriesCanonical s → (s.fsm = .idle ∨ s.fsm = .ready ∨ s.fsm = .done) → s.imgPtr.toNat + 4 ≤ s.params.maxImage →
    ∃ m, perform (wr 0x0E4#12 v) s =
        .next { s with image := m, imgPtr := BitVec.ofNat 32 (s.imgPtr.toNat + 4), fsm := .idle } ∧
      m.read s.imgPtr.toNat = v.extractLsb' 0 8 ∧
      m.read (s.imgPtr.toNat + 1) = v.extractLsb' 8 8 ∧
      m.read (s.imgPtr.toNat + 2) = v.extractLsb' 16 8 ∧
      m.read (s.imgPtr.toNat + 3) = v.extractLsb' 24 8 ∧
      ∀ a, a < s.imgPtr.toNat ∨ s.imgPtr.toNat + 4 ≤ a → m.read a = s.image.read a

/-- 10_state.md R54, 20_memory.md R65: the image port returns the image memory's bytes at IMG_PTR and moves it: IMG_DATA the
four bytes that four IMG_BYTE reads return, lowest in bits 7:0; an IMG_DATA write leaves the same machine as four IMG_BYTE
writes; an IMG_BYTE write stores bits 7:0 alone, at every address of the memory. That a write leaves READY and DONE is log
9's reading of 10_state.md R27 and 70_reset_and_hazards.md R273. -/
def Obligations.ImagePortReadsAndWritesTheImage : Prop :=
  ∀ (v : Word) (s : State), MemoriesCanonical s →
    let a := s.imgPtr.toNat
    let byte (i : Nat) : Nat := (s.image.read (a + i)).toNat
    (a + 4 ≤ s.params.maxImage →
      ((s.fsm = .idle ∨ s.fsm = .ready ∨ s.fsm = .done) →
        perform (wr 0x0E4#12 v) s =
          runProgram [wr 0x0E8#12 v, wr 0x0E8#12 (v >>> 8), wr 0x0E8#12 (v >>> 16), wr 0x0E8#12 (v >>> 24)] s) ∧
      perform (rd 0x0E4#12) s = .next { s with
        imgPtr := BitVec.ofNat 32 (a + 4)
        replies := s.replies ++ [BitVec.ofNat 32 (byte 0 + byte 1 * 2 ^ 8 + byte 2 * 2 ^ 16 + byte 3 * 2 ^ 24)] } ∧
      runProgram [rd 0x0E8#12, rd 0x0E8#12, rd 0x0E8#12, rd 0x0E8#12] s = .next { s with
        imgPtr := BitVec.ofNat 32 (a + 4)
        replies := s.replies ++ [BitVec.ofNat 32 (byte 0), BitVec.ofNat 32 (byte 1), BitVec.ofNat 32 (byte 2),
          BitVec.ofNat 32 (byte 3)] }) ∧
    (a + 1 ≤ s.params.maxImage →
      perform (rd 0x0E8#12) s = .next { s with
        imgPtr := BitVec.ofNat 32 (a + 1)
        replies := s.replies ++ [BitVec.ofNat 32 (byte 0)] } ∧
      ((s.fsm = .idle ∨ s.fsm = .ready ∨ s.fsm = .done) →
        perform (wr 0x0E8#12 v) s = perform (wr 0x0E8#12 (v &&& 0xFF#32)) s ∧
        ∃ m, perform (wr 0x0E8#12 v) s =
            .next { s with image := m, imgPtr := BitVec.ofNat 32 (a + 1), fsm := .idle } ∧
          m.read a = v.extractLsb' 0 8 ∧ ∀ b, b ≠ a → m.read b = s.image.read b))

/-- 10_state.md R54, R55, 60_exceptions.md R234: where the image and frame ports stop: the lock before the range on a write,
ARG_RANGE beyond MAX_IMAGE and at FRAME_LEN, and a read then returns 0. -/
def Obligations.PortsRefuseOutOfRange : Prop :=
  ∀ (v : Word) (s : State),
    let refused (code : Byte) : State := { s with
      err := { s.err with cmdErr := true, cmdErrCode := code }
      irq := { s.irq with pend := s.irq.pend ||| 0b1000#4 } }
    ((s.fsm = .intro ∨ s.fsm = .packet ∨ s.fsm = .pause ∨ s.fsm = .outro ∨ s.fsm = .error) →
      perform (wr 0x0E4#12 v) s = .next (refused 0x24#8) ∧ perform (wr 0x0E8#12 v) s = .next (refused 0x24#8)) ∧
    (s.params.maxImage < s.imgPtr.toNat + 4 →
      perform (rd 0x0E4#12) s = .next { refused 0x22#8 with replies := s.replies ++ [0#32] } ∧
      ((s.fsm = .idle ∨ s.fsm = .ready ∨ s.fsm = .done) → perform (wr 0x0E4#12 v) s = .next (refused 0x22#8))) ∧
    (s.params.maxImage < s.imgPtr.toNat + 1 →
      perform (rd 0x0E8#12) s = .next { refused 0x22#8 with replies := s.replies ++ [0#32] } ∧
      ((s.fsm = .idle ∨ s.fsm = .ready ∨ s.fsm = .done) → perform (wr 0x0E8#12 v) s = .next (refused 0x22#8))) ∧
    (if s.fbPtr.toNat < s.frameLen.toNat
      then perform (rd 0x0F4#12) s =
        .next { s with
          fbPtr := s.fbPtr + 1#32
          replies := s.replies ++ [(s.fb.read s.fbPtr.toNat).setWidth 32] }
      else perform (rd 0x0F4#12) s = .next { refused 0x22#8 with replies := s.replies ++ [0#32] })

/-- 10_state.md R25, R32, R33: ERR_CLR clears the sticky bit and the code when bit 0 is written 1; IRQ_PEND clears exactly
the bits written 1; IRQ_EN and the FREE registers take their value in every controller state. That a write of IMG_PTR
returns READY and DONE to IDLE, and only those, is log 9's reading of 70_reset_and_hazards.md R273 beside R25. -/
def Obligations.ClearAndFreeWritesTakeEffectInEveryState : Prop :=
  ∀ (v : Word) (s : State),
    perform (wr 0x018#12 v) s =
      .next (if v.getLsbD 0 = true then { s with err := { s.err with cmdErr := false, cmdErrCode := 0#8 } } else s) ∧
    (∃ pd, perform (wr 0x020#12 v) s = .next { s with irq := { s.irq with pend := pd } } ∧
      ∀ i, i < 4 → pd.getLsbD i = (s.irq.pend.getLsbD i && !v.getLsbD i)) ∧
    (∃ en, perform (wr 0x01C#12 v) s = .next { s with irq := { s.irq with en := en } } ∧
      ∀ i, i < 4 → en.getLsbD i = v.getLsbD i) ∧
    perform (wr 0x028#12 v) s = .next { s with arg0 := v } ∧
    perform (wr 0x02C#12 v) s = .next { s with arg1 := v } ∧
    perform (wr 0x0E0#12 v) s =
      .next { s with imgPtr := v, fsm := if s.fsm = .ready ∨ s.fsm = .done then .idle else s.fsm } ∧
    perform (wr 0x0F0#12 v) s = .next { s with fbPtr := v }

/-! ### Commands: each command's own effect -/

/-- 46_pacing.md R190, R191: NOP changes nothing and SRESET starts a new session, each in every controller state. -/
def Obligations.NopAndSresetCompleteInEveryState : Prop :=
  ∀ s : State,
    exec .nop s = .next s ∧
    exec .sreset s = .next { s with
      session := ⟨s.pace.scrSeed, 0, 0, false⟩
      fsm := .idle
      ctl := ⟨0, 0, 0⟩
      out := ⟨.none, .none, 0, 0, 0⟩
      frameLen := 0
      result := 0
      err := ⟨0, 0, s.err.cmdErr, s.err.cmdErrCode⟩ }

/-- 46_pacing.md R192: CFGCHK of a legal configuration makes the controller READY and changes nothing else. -/
def Obligations.CfgchkAcceptsALegalConfiguration : Prop :=
  ∀ s : State, (s.fsm = .idle ∨ s.fsm = .ready ∨ s.fsm = .done) → LegalConfig s →
    exec .cfgchk s = .next { s with fsm := .ready }

/-- 46_pacing.md R192, 60_exceptions.md R230, R234: CFGCHK's checks in order; the first that fails is reported by its code
and register offset, as a fatal error. The chain covers every illegal configuration. -/
def Obligations.CfgchkReportsTheFirstFailingCheck : Prop :=
  ∀ s : State, (s.fsm = .idle ∨ s.fsm = .ready ∨ s.fsm = .done) →
    let sr := s.cons.sampleRate.toNat
    let fc := s.cons.carrierFreq.toNat
    let br := s.cons.bitRate.toNat
    let ps := s.cons.packetSize.toNat
    let u := s.pace.unitSize.toNat
    let l := s.pace.imageLen.toNat
    let sym := sr / br * 2
    let per := sr / fc
    let pl := u * ((l + u - 1) / u)
    let fatal (code : Byte) (info : Word) : Result := .next { s with
      err := { s.err with errCode := code, errInfo := info }
      fsm := .error
      out := ⟨.none, .none, 0, 0, 0⟩
      irq := { s.irq with pend := s.irq.pend ||| 0b0100#4 } }
    exec .cfgchk s =
      if 2 ≤ s.pace.strategy.toNat then fatal 0x01#8 0x060#32
      else if sr = 0 then fatal 0x02#8 0x040#32
      else if fc = 0 then fatal 0x02#8 0x044#32
      else if br = 0 then fatal 0x02#8 0x048#32
      else if ps = 0 then fatal 0x02#8 0x04C#32
      else if u = 0 then fatal 0x02#8 0x064#32
      else if sr % fc ≠ 0 then fatal 0x03#8 0x044#32
      else if sr % br ≠ 0 then fatal 0x04#8 0x048#32
      else if 2 ^ 32 ≤ sym ∨ (per % sym ≠ 0 ∧ sym % per ≠ 0) then fatal 0x05#8 0x09C#32
      else if s.params.maxPacket < ps then fatal 0x06#8 0x04C#32
      else if u < ps then fatal 0x07#8 0x04C#32
      else if u % ps ≠ 0 then fatal 0x08#8 0x064#32
      else if s.params.maxImage < l ∨ 2 ^ 32 ≤ pl then fatal 0x09#8 0x07C#32
      else if s.pace.strategy.toNat = 1 ∧ s.params.maxSectors < s.pace.sectorCount.toNat then fatal 0x0A#8 0x080#32
      else if s.pace.strategy.toNat = 1 ∧ 2 ^ 32 < s.pace.appStart.toNat + pl then fatal 0x0B#8 0x070#32
      else .next { s with fsm := .ready }

/-- 46_pacing.md R193, R195: RUN fixes the padded length, sets the cursor to 0 and enters INTRO; it opens no block and
leaves the session alone. -/
def Obligations.RunStartsTheController : Prop :=
  ∀ s : State, (s.fsm = .ready ∨ s.fsm = .done) → outRemain s = 0 →
    exec .run s = .next { s with
      ctl := ⟨0, 0, BitVec.ofNat 32
        (s.pace.unitSize.toNat * ((s.pace.imageLen.toNat + s.pace.unitSize.toNat - 1) / s.pace.unitSize.toNat))⟩
      fsm := .intro }

/-- 46_pacing.md R198, 45_silence.md R181, R183: PULL in INTRO and in OUTRO opens the silence of its register and moves on;
an empty block pends DRAINED at once, and the outro pends DONE. -/
def Obligations.PullOpensIntroAndOutroSilence : Prop :=
  ∀ s : State, outRemain s = 0 →
    let nsym (us : Word) : Nat := 4 * (us.toNat * s.cons.bitRate.toNat / 8000000)
    let empty (us : Word) : BitVec 4 := if nsym us * symbolSamples s.cons = 0 then 0b0001#4 else 0#4
    (s.fsm = .intro →
      exec .pull s = .next { s with
        out := ⟨.intro, .zeros, nsym s.pace.introUs, 0, 0⟩
        irq := { s.irq with pend := s.irq.pend ||| empty s.pace.introUs }
        fsm := if s.ctl.padlen.toNat = 0 then .outro else .packet }) ∧
    (s.fsm = .outro →
      exec .pull s = .next { s with
        out := ⟨.outro, .zeros, nsym s.pace.outroUs, 0, 0⟩
        irq := { s.irq with pend := s.irq.pend ||| empty s.pace.outroUs ||| 0b0010#4 }
        fsm := .done })

/-- 46_pacing.md R196, 42_framer.md R125: PULL in PACKET frames the packet at CTL_OFFSET, opens its block, advances the
cursor, and completes the unit at U div PS packets. The frame buffer bytes beyond the frame are as before. -/
def Obligations.PullEmitsThePacketAtTheCursor : Prop :=
  ∀ s : State, s.fsm = .packet → outRemain s = 0 → s.cons.packetSize.toNat ≤ s.params.maxPacket →
    s.fb.wf (s.params.maxPacket + 20) = true →
    let ps := s.cons.packetSize.toNat
    let plain : List Byte := (List.range ps).map fun i => imageByte s (s.ctl.offset.toNat + i)
    let sent : List Byte := if s.cons.scrEn then scrambled s.session.scrState plain else plain
    ∃ m, exec .pull s = .next { s with
        session := { s.session with
          scrState := if s.cons.scrEn then keystreamAfter s.session.scrState plain else s.session.scrState
          started := s.session.started || (s.cons.scrEn && decide (ps ≠ 0)) }
        fb := m
        frameLen := BitVec.ofNat 32 (ps + 20)
        result := crc32 sent
        out := ⟨.packet, .framebuf, 4 * (ps + 20), 0, 0⟩
        irq := { s.irq with pend :=
          s.irq.pend ||| (if 4 * (ps + 20) * symbolSamples s.cons = 0 then 0b0001#4 else 0#4) }
        ctl := { s.ctl with offset := s.ctl.offset + s.cons.packetSize, pktcnt := s.ctl.pktcnt + 1#32 }
        fsm := if (s.ctl.pktcnt + 1#32).toNat = s.pace.unitSize.toNat / ps then .pause else .packet } ∧
      (∀ i, i < ps + 20 → m.read i =
        (List.replicate 8 0x00#8 ++ List.replicate 4 0x99#8 ++ List.replicate 4 0xCC#8 ++ sent ++
          [(crc32 sent).extractLsb' 24 8, (crc32 sent).extractLsb' 16 8, (crc32 sent).extractLsb' 8 8,
            (crc32 sent).extractLsb' 0 8]).getD i 0) ∧
      (∀ i, ps + 20 ≤ i → m.read i = s.fb.read i)

/-- 46_pacing.md R197, R201: PULL in PAUSE ends the unit with the erase pause exactly when sector pacing is on and the start
address of the chunk just encoded equals an entry in use, else with the short pause; then the next unit or the outro. -/
def Obligations.PullPausesByExactSectorStart : Prop :=
  ∀ s : State, s.fsm = .pause → outRemain s = 0 → s.pace.unitSize.toNat ≤ s.pace.appStart.toNat + s.ctl.offset.toNat →
    (s.pace.strategy.getLsbD 0 = true → s.pace.sectorCount.toNat ≤ s.params.maxSectors) →
    ∃ kind us,
      (if s.pace.strategy.getLsbD 0 = true ∧
          ∃ i : Fin 128, i.val < s.pace.sectorCount.toNat ∧
            s.pace.sect[i].toNat = s.pace.appStart.toNat + s.ctl.offset.toNat - s.pace.unitSize.toNat
        then kind = OutKind.pauseErase ∧ us = s.pace.pauseEraseUs
        else kind = OutKind.pauseShort ∧ us = s.pace.pauseShortUs) ∧
      exec .pull s = .next { s with
        out := ⟨kind, .zeros, 4 * (us.toNat * s.cons.bitRate.toNat / 8000000), 0, 0⟩
        irq := { s.irq with pend := s.irq.pend |||
          (if 4 * (us.toNat * s.cons.bitRate.toNat / 8000000) * symbolSamples s.cons = 0 then 0b0001#4 else 0#4) }
        ctl := { s.ctl with pktcnt := 0 }
        fsm := if s.ctl.offset = s.ctl.padlen then .outro else .packet }

/-- 41_scrambler.md R102: SCRLD copies the seed into the scrambler state and changes nothing else. -/
def Obligations.ScrldLoadsTheSeed : Prop :=
  ∀ s : State, (s.fsm = .idle ∨ s.fsm = .ready ∨ s.fsm = .done) →
    exec .scrld s = .next { s with session := { s.session with scrState := s.pace.scrSeed } }

/-- 41_scrambler.md R100, R103: SCRB returns the byte exclusive-or the key byte taken before the update, advances the
generator modulo 2^32 and starts the session, whatever SCR_CTRL.EN holds. -/
def Obligations.ScrbScramblesOneByte : Prop :=
  ∀ (b : Byte) (s : State), (s.fsm = .idle ∨ s.fsm = .ready ∨ s.fsm = .done) →
    exec (.scrb b) s = .next { s with
      result := (b ^^^ (s.session.scrState >>> 24).setWidth 8).setWidth 32
      session := { s.session with
        scrState := BitVec.ofNat 32 ((s.session.scrState.toNat * 1664525 + 1013904223) % 2 ^ 32)
        started := true } }

/-- 42_framer.md R123, 20_memory.md R64: CRC is the checksum of the virtually padded image range, in RESULT alone. -/
def Obligations.CrcChecksumsTheImageRange : Prop :=
  ∀ s : State, (s.fsm = .idle ∨ s.fsm = .ready ∨ s.fsm = .done) → s.arg0.toNat + s.arg1.toNat ≤ 2 ^ 32 →
    exec .crc s = .next { s with
      result := crc32 ((List.range s.arg1.toNat).map fun i =>
        if s.arg0.toNat + i < s.pace.imageLen.toNat ∧ s.arg0.toNat + i < s.params.maxImage
        then s.image.read (s.arg0.toNat + i) else 0xFF#8) }

/-- 42_framer.md R122, R124, R125: FRAME pads with 0xFF, scrambles when enabled, checksums the bytes sent, and writes
preamble, payload and big-endian CRC at the start of the frame buffer; the bytes beyond are as before. -/
def Obligations.FrameFillsTheFrameBuffer : Prop :=
  ∀ s : State, (s.fsm = .ready ∨ s.fsm = .done) → outRemain s = 0 →
    s.arg0.toNat + s.arg1.toNat ≤ 2 ^ 32 → s.arg1.toNat ≤ s.cons.packetSize.toNat →
    s.cons.packetSize.toNat ≤ s.params.maxPacket → s.fb.wf (s.params.maxPacket + 20) = true →
    let ps := s.cons.packetSize.toNat
    let plain : List Byte := (List.range ps).map fun i =>
      if i < s.arg1.toNat then imageByte s (s.arg0.toNat + i) else 0xFF#8
    let sent : List Byte := if s.cons.scrEn then scrambled s.session.scrState plain else plain
    ∃ m, exec .frame s = .next { s with
        session := { s.session with
          scrState := if s.cons.scrEn then keystreamAfter s.session.scrState plain else s.session.scrState
          started := s.session.started || (s.cons.scrEn && decide (ps ≠ 0)) }
        fb := m
        frameLen := BitVec.ofNat 32 (ps + 20)
        result := crc32 sent } ∧
      (∀ i, i < 8 → m.read i = 0x00#8) ∧
      (∀ i, 8 ≤ i → i < 12 → m.read i = 0x99#8) ∧
      (∀ i, 12 ≤ i → i < 16 → m.read i = 0xCC#8) ∧
      (∀ i, i < ps → m.read (16 + i) = sent.getD i 0) ∧
      m.read (16 + ps) = (crc32 sent).extractLsb' 24 8 ∧
      m.read (17 + ps) = (crc32 sent).extractLsb' 16 8 ∧
      m.read (18 + ps) = (crc32 sent).extractLsb' 8 8 ∧
      m.read (19 + ps) = (crc32 sent).extractLsb' 0 8 ∧
      (∀ i, ps + 20 ≤ i → m.read i = s.fb.read i)

/-- 42_framer.md R123, R124, 60_exceptions.md R234: a range that passes 2^32 is refused with ARG_RANGE before FRAME's fatal
FRAME_OVERSIZE, which records the length. -/
def Obligations.CrcAndFrameCheckTheirArguments : Prop :=
  ∀ s : State,
    let refused : Result := .next { s with
      err := { s.err with cmdErr := true, cmdErrCode := 0x22#8 }
      irq := { s.irq with pend := s.irq.pend ||| 0b1000#4 } }
    ((s.fsm = .idle ∨ s.fsm = .ready ∨ s.fsm = .done) → 2 ^ 32 < s.arg0.toNat + s.arg1.toNat → exec .crc s = refused) ∧
    ((s.fsm = .ready ∨ s.fsm = .done) → outRemain s = 0 → 2 ^ 32 < s.arg0.toNat + s.arg1.toNat → exec .frame s = refused) ∧
    ((s.fsm = .ready ∨ s.fsm = .done) → outRemain s = 0 → s.arg0.toNat + s.arg1.toNat ≤ 2 ^ 32 →
      s.cons.packetSize.toNat < s.arg1.toNat →
      exec .frame s = .next { s with
        err := { s.err with errCode := 0x10#8, errInfo := s.arg1 }
        fsm := .error
        out := ⟨.none, .none, 0, 0, 0⟩
        irq := { s.irq with pend := s.irq.pend ||| 0b0100#4 } })

/-- 43_mapper.md R140, R141: MAPB places the four bit pairs of the byte, most significant first, one in each byte lane of
RESULT from the lowest, and changes nothing else. -/
def Obligations.MapbPacksTheSymbols : Prop :=
  ∀ (b : Byte) (s : State), (s.fsm = .idle ∨ s.fsm = .ready ∨ s.fsm = .done) →
    exec (.mapb b) s = .next { s with
      result := BitVec.ofNat 32 (b.toNat / 64 % 4 + b.toNat / 16 % 4 * 2 ^ 8 + b.toNat / 4 % 4 * 2 ^ 16 +
        b.toNat % 4 * 2 ^ 24) }

/-- 44_modulator.md R155, R159, R160, 45_silence.md R181, R182: MODS, MODF and BLANK open their blocks, an empty one
pending DRAINED at once, and change nothing else. -/
def Obligations.ModsModfAndBlankOpenTheirBlocks : Prop :=
  ∀ s : State, (s.fsm = .ready ∨ s.fsm = .done) → outRemain s = 0 →
    let opened (o : OutBlock) : Result := .next { s with
      out := o
      irq := { s.irq with pend := s.irq.pend ||| (if o.nsym * symbolSamples s.cons = 0 then 0b0001#4 else 0#4) } }
    (∀ y : Symbol, exec (.mods y) s = opened ⟨.raw, .single, 1, y, 0⟩) ∧
    (s.frameLen ≠ 0 → exec .modf s = opened ⟨.raw, .framebuf, 4 * s.frameLen.toNat, 0, 0⟩) ∧
    (∀ us : Nat, exec (.blank us) s = opened ⟨.blank, .zeros, 4 * (us * s.cons.bitRate.toNat / 8000000), 0, 0⟩)

/-- 30_encoding.md R83: the table of state checks. A command not accepted raises CMD_SEQ and has no other effect. -/
def Obligations.CommandsOutOfStateRaiseCmdSeq : Prop :=
  ∀ s : State,
    let refused : Result := .next { s with
      err := { s.err with cmdErr := true, cmdErrCode := 0x21#8 }
      irq := { s.irq with pend := s.irq.pend ||| 0b1000#4 } }
    (s.fsm ∉ [Fsm.idle, .ready, .done] →
      exec .cfgchk s = refused ∧ exec .scrld s = refused ∧ exec .crc s = refused ∧
      (∀ b, exec (.scrb b) s = refused ∧ exec (.mapb b) s = refused)) ∧
    (s.fsm ∉ [Fsm.ready, .done] ∨ outRemain s ≠ 0 →
      exec .run s = refused ∧ exec .frame s = refused ∧ exec .modf s = refused ∧
      (∀ y, exec (.mods y) s = refused) ∧ (∀ us, exec (.blank us) s = refused)) ∧
    (s.frameLen = 0 → exec .modf s = refused) ∧
    (s.fsm ∉ [Fsm.intro, .packet, .pause, .outro] ∨ outRemain s ≠ 0 → exec .pull s = refused)

/-- 20_memory.md R62, 10_state.md R55: no command stores to the image memory, and only FRAME and PULL store to the frame
buffer, where they leave every byte at or beyond PACKET_SIZE + 20 as it was. -/
def Obligations.CommandsStoreOnlyInTheFrame : Prop :=
  ∀ (i : Instr) (s t : State), exec i s = .next t →
    t.image = s.image ∧
    (i ≠ .frame → i ≠ .pull → t.fb = s.fb) ∧
    (∀ a, s.cons.packetSize.toNat + 20 ≤ a → t.fb.read a = s.fb.read a)

/-- 10_state.md R20 to R57: the registers no command writes: the configuration, ARG0, ARG1, IMG_PTR, FB_PTR, IRQ_EN and
the host's lists; and the model's sizes. -/
def Obligations.CommandsKeepTheHostsRegisters : Prop :=
  ∀ (i : Instr) (s t : State), exec i s = .next t →
    t.cons = s.cons ∧ t.pace = s.pace ∧ t.arg0 = s.arg0 ∧ t.arg1 = s.arg1 ∧ t.imgPtr = s.imgPtr ∧ t.fbPtr = s.fbPtr ∧
    t.irq.en = s.irq.en ∧ t.params = s.params ∧ t.pending = s.pending ∧ t.replies = s.replies

/-! ### Errors, interrupts and sessions -/

/-- 60_exceptions.md R232, R233: entering ERROR changes only the fatal record, the controller state, the block and the
FATAL pending bit, and the read that entered it returns 0. -/
def Obligations.FatalEntryChangesOnlyItsRecord : Prop :=
  ∀ (e : HostEvent) (s t : State), perform e s = .next t → s.fsm ≠ .error → t.fsm = .error →
    ∃ code info,
      code ∈ [0x01#8, 0x02#8, 0x03#8, 0x04#8, 0x05#8, 0x06#8, 0x07#8, 0x08#8, 0x09#8, 0x0A#8, 0x0B#8, 0x10#8, 0x11#8] ∧
      t = { s with
        err := { s.err with errCode := code, errInfo := info }
        fsm := .error
        out := ⟨.none, .none, 0, 0, 0⟩
        irq := { s.irq with pend := s.irq.pend ||| 0b0100#4 }
        replies := match e with
          | .read _ _ => s.replies ++ [0#32]
          | _ => s.replies }

/-- 60_exceptions.md R236, R237: an access that changes CMD_ERR_CODE to another code has no other effect than R236's, and a
read then returns 0. -/
def Obligations.CommandErrorEntryChangesOnlyItsRecord : Prop :=
  ∀ (e : HostEvent) (s t : State), perform e s = .next t → t.err.cmdErrCode ≠ s.err.cmdErrCode → t.err.cmdErrCode ≠ 0 →
    t.err.cmdErrCode ∈ [0x20#8, 0x21#8, 0x22#8, 0x23#8, 0x24#8, 0x25#8, 0x26#8] ∧
    t = { s with
      err := { s.err with cmdErr := true, cmdErrCode := t.err.cmdErrCode }
      irq := { s.irq with pend := s.irq.pend ||| 0b1000#4 }
      replies := match e with
        | .read _ _ => s.replies ++ [0#32]
        | _ => s.replies }

/-- 60_exceptions.md R235, R232: the only ways out of ERROR are SRESET and hardware reset, and until then the first fatal
error's code and information are kept and no sample is produced. -/
def Obligations.ErrorIsLeftOnlyByANewSession : Prop :=
  ∀ (s t : State) (e : HostEvent) (rest : Program),
    s.fsm = .error → s.out = ⟨.none, .none, 0, 0, 0⟩ → s.pending = e :: rest → step s = .next t → startsSession e = false →
    t.fsm = .error ∧ t.err.errCode = s.err.errCode ∧ t.err.errInfo = s.err.errInfo ∧ t.session = s.session ∧
    t.out = s.out ∧ t.cons = s.cons ∧ t.pace = s.pace ∧ t.image = s.image

/-- 10_state.md R33, 60_exceptions.md R238: a pending bit stays set until the host writes 1 to it or resets the hardware,
whatever IRQ_EN holds. -/
def Obligations.PendingBitsStayUntilTheHostClearsThem : Prop :=
  ∀ (s t : State) (e : HostEvent) (i : Nat), perform e s = .next t → i < 4 →
    s.irq.pend.getLsbD i = true → t.irq.pend.getLsbD i = false →
    (∃ v, e = .write .w32 0x020#12 v ∧ v.getLsbD i = true) ∨ ∃ image fb, e = .hardReset image fb

/-- 10_state.md R21, 44_modulator.md R157: N advances by one on an OUT_DATA read and goes back to 0 only when a session
starts; nothing else changes it. -/
def Obligations.SampleIndexIsNeverRewound : Prop :=
  ∀ (s t : State) (e : HostEvent), perform e s = .next t →
    t.session.sampleIndex = s.session.sampleIndex ∨
    (e = .read .w32 0x0C8#12 ∧ t.session.sampleIndex.toNat = s.session.sampleIndex.toNat + 1) ∨
    (startsSession e = true ∧ t.session.sampleIndex = 0)

/-- 10_state.md R21, R41: the scrambler state is changed only by SRESET, SCRLD, SCRB, FRAME, PULL and hardware reset; a
write of SCR_SEED alone does not reach it. -/
def Obligations.ScramblerStateChangesOnlyByItsCommands : Prop :=
  ∀ (s t : State) (e : HostEvent), perform e s = .next t → t.session.scrState ≠ s.session.scrState →
    (∃ image fb, e = .hardReset image fb) ∨
    ∃ w i, e = .write .w32 0x004#12 w ∧ decode w = .ok i ∧
      (i = .sreset ∨ i = .scrld ∨ (∃ b, i = .scrb b) ∨ i = .frame ∨ i = .pull)

/-- 70_reset_and_hazards.md R270: the value of every element after hardware reset, whatever the machine did before and
whatever the memories come up holding; State.reset is one such state. The frame buffer cannot be observed. -/
def Obligations.HardwareResetValues : Prop :=
  (∀ (image fb : List Host.Cell) (s : State), ∃ t, perform (.hardReset image fb) s = .next t) ∧
  ∀ t : State, (t = State.reset ∨ ∃ image fb s, perform (.hardReset image fb) s = .next t) →
    perform (rd 0x000#12) t = .next (reply 0x51530107#32 t) ∧ t.fsm = .idle ∧ perform (rd 0x008#12) t = .next (reply 0 t) ∧
    t.err = ⟨0, 0, false, 0⟩ ∧ t.irq = ⟨0, 0⟩ ∧ t.result = 0 ∧ t.arg0 = 0 ∧ t.arg1 = 0 ∧ t.cons = ⟨0, 0, 0, 0, false⟩ ∧ t.pace.scrSeed = 0 ∧ t.pace.strategy = 0 ∧
    t.pace.unitSize = 0 ∧ t.pace.pauseShortUs = 0 ∧ t.pace.pauseEraseUs = 0 ∧ t.pace.appStart = 0 ∧ t.pace.introUs = 0 ∧
    t.pace.outroUs = 0 ∧ t.pace.imageLen = 0 ∧ t.pace.sectorCount = 0 ∧ (∀ i : Fin 128, t.pace.sect[i] = 0) ∧
    t.session = ⟨0, 0, 0, false⟩ ∧ t.ctl = ⟨0, 0, 0⟩ ∧ t.out = ⟨.none, .none, 0, 0, 0⟩ ∧ outRemain t = 0 ∧
    perform (rd 0x0CC#12) t = .next (reply 0 t) ∧ t.frameLen = 0 ∧
    (∀ p, perform (rd 0x0F4#12) { t with fbPtr := p } = .next (reply 0 (raiseCmdErr .argRange { t with fbPtr := p }))) ∧
    t.imgPtr = 0 ∧ t.fbPtr = 0 ∧ perform (rd 0x09C#12) t = .next (reply 0 t) ∧ perform (rd 0x0A0#12) t = .next (reply 0 t)

/-- 20_memory.md R75, 10_state.md R27: while a run is in progress no event but a new session changes what it reads: the
configuration, the sector table and the image. -/
def Obligations.ARunsInputsAreLocked : Prop :=
  ∀ (s t : State) (e : HostEvent), perform e s = .next t → s.fsm.running = true → startsSession e = false →
    SameInputs s t

/-- 20_memory.md R75, 70_reset_and_hazards.md R275 H2, H9: while samples remain, no event but a new session or a fatal error
changes the block's source, length or symbol, or the frame it is read from. -/
def Obligations.AnOpenBlocksSymbolsAreFixed : Prop :=
  ∀ (s t : State) (e : HostEvent), perform e s = .next t → outRemain s ≠ 0 → startsSession e = false → t.fsm ≠ .error →
    t.out.kind = s.out.kind ∧ t.out.src = s.out.src ∧ t.out.nsym = s.out.nsym ∧ t.out.sym = s.out.sym ∧ t.fb = s.fb ∧
    t.frameLen = s.frameLen

/-! ### Scrambler, framer and mapper properties -/

/-- 41_scrambler.md R100, R101, R104: scrambling a sequence is one step of R100 a byte, in order; one cumulative keystream:
scrambling a sequence in two calls is scrambling it in one, the lengths agree, scrambling twice from one state gives the
bytes back, the states do not depend on the data, and from state 0 the first byte is sent as it is. -/
def Obligations.KeystreamIsCumulativeAndReversible : Prop :=
  ∀ (x : Word) (a b : List Byte),
    scrambled x [] = [] ∧ keystreamAfter x [] = x ∧
    (∀ y : Byte,
      let next : Word := BitVec.ofNat 32 ((x.toNat * 1664525 + 1013904223) % 2 ^ 32)
      scrambled x (y :: a) = (y ^^^ (x >>> 24).setWidth 8) :: scrambled next a ∧
      keystreamAfter x (y :: a) = keystreamAfter next a) ∧
    scrambled x (a ++ b) = scrambled x a ++ scrambled (keystreamAfter x a) b ∧
    keystreamAfter x (a ++ b) = keystreamAfter (keystreamAfter x a) b ∧
    (scrambled x a).length = a.length ∧
    scrambled x (scrambled x a) = a ∧
    keystreamAfter x (scrambled x a) = keystreamAfter x a ∧
    ∀ y : Byte, scrambled 0#32 (y :: a) = y :: scrambled 1013904223#32 a

/-- 42_framer.md R126: after every FRAME and packet PULL (with checked arguments and room in the buffer), the CRC-32 of the payload bytes in the buffer
is the four trailing bytes read big-endian, and with scrambling off FRAME's tail beyond the payload is 0xFF. -/
def Obligations.TheFrameChecksItself : Prop :=
  ∀ (i : Instr) (s : State),
    ((i = .frame ∧ (s.fsm = .ready ∨ s.fsm = .done) ∧ s.arg0.toNat + s.arg1.toNat ≤ 2 ^ 32 ∧
        s.arg1.toNat ≤ s.cons.packetSize.toNat) ∨
      (i = .pull ∧ s.fsm = .packet)) →
    outRemain s = 0 → s.cons.packetSize.toNat ≤ s.params.maxPacket → s.fb.wf (s.params.maxPacket + 20) = true →
    let ps := s.cons.packetSize.toNat
    ∃ t, exec i s = .next t ∧
    let payload : List Byte := (List.range ps).map fun j => t.fb.read (16 + j)
    t.frameLen.toNat = ps + 20 ∧
    (crc32 payload).toNat = (t.fb.read (16 + ps)).toNat * 2 ^ 24 + (t.fb.read (17 + ps)).toNat * 2 ^ 16 +
      (t.fb.read (18 + ps)).toNat * 2 ^ 8 + (t.fb.read (19 + ps)).toNat ∧
    (i = .frame → s.cons.scrEn = false → ∀ j, s.arg1.toNat ≤ j → j < ps → t.fb.read (16 + j) = 0xFF#8)

/-- 42_framer.md R120: the CRC-32 parameters, by their check value, the empty sequence, and one byte. -/
def Obligations.CrcCheckValues : Prop :=
  crc32 [0x31#8, 0x32#8, 0x33#8, 0x34#8, 0x35#8, 0x36#8, 0x37#8, 0x38#8, 0x39#8] = 0xCBF43926#32 ∧
  crc32 [] = 0#32 ∧ crc32 [0x01#8, 0x02#8, 0x03#8, 0x04#8] = 0xB63CFBCD#32

/-- 43_mapper.md R140, R142: symbol i of the frame held is element i of the byte sequence's symbol stream. -/
def Obligations.FrameSymbolsAreTheMapperStream : Prop :=
  ∀ (s : State) (n i : Nat), i < 4 * n →
    (symbolStream ((List.range n).map fun j => s.fb.read j))[i]? = some (symFb s i)

/-! ### The modulator -/

/-- 44_modulator.md R157, 60_exceptions.md R234: a read of OUT_DATA: underflow, then index overflow, then one sample: the
rendering of its symbol at the phase held, N and k advanced, the session started, and DRAINED with the last sample. -/
def Obligations.PopProducesOneSample : Prop :=
  ∀ s : State,
    (outRemain s = 0 →
      perform (rd 0x0C8#12) s = .next { s with
        err := { s.err with cmdErr := true, cmdErrCode := 0x23#8 }
        irq := { s.irq with pend := s.irq.pend ||| 0b1000#4 }
        replies := s.replies ++ [0#32] }) ∧
    (outRemain s ≠ 0 → s.session.sampleIndex.toNat = 2 ^ 64 - 1 →
      perform (rd 0x0C8#12) s = .next { s with
        err := { s.err with errCode := 0x11#8, errInfo := 0 }
        fsm := .error
        out := ⟨.none, .none, 0, 0, 0⟩
        irq := { s.irq with pend := s.irq.pend ||| 0b0100#4 }
        replies := s.replies ++ [0#32] }) ∧
    (outRemain s ≠ 0 → s.session.sampleIndex.toNat < 2 ^ 64 - 1 → s.cons.sampleRate ≠ 0 →
      ∀ y,
        (s.out.src = .zeros → y = 0#2) → (s.out.src = .single → y = s.out.sym) →
        (s.out.src = .framebuf →
          s.out.pos / symbolSamples s.cons < 4 * s.frameLen.toNat ∧ y = symFb s (s.out.pos / symbolSamples s.cons)) →
        s.out.src ≠ .none →
        perform (rd 0x0C8#12) s = .next { s with
          session := { s.session with
            sampleIndex := s.session.sampleIndex + 1#64
            phaseAcc := BitVec.ofNat 32
              ((s.session.phaseAcc.toNat + s.cons.carrierFreq.toNat) % s.cons.sampleRate.toNat)
            started := true }
          out := { s.out with pos := s.out.pos + 1 }
          irq := { s.irq with pend := s.irq.pend ||| (if outRemain s = 1 then 0b0001#4 else 0#4) }
          replies := s.replies ++ [Config.render y s.session.phaseAcc s.cons.sampleRate] } ∧
        perform (rd 0x0CC#12) s = .next { s with replies := s.replies ++ [0x80000000#32 ||| y.setWidth 32] })

/-- 44_modulator.md R152, R157, R162: popping n samples of an open block returns, in order, the renderings of its symbols
at phases k, k + FC, k + 2 FC, ... modulo SR, and advances N by exactly n. -/
def Obligations.DrainingEmitsTheBlocksWaveform : Prop :=
  ∀ (s : State) (n : Nat),
    Inv s → s.cons.sampleRate ≠ 0 → n ≤ outRemain s → s.session.sampleIndex.toNat + n < 2 ^ 64 →
    ∃ t, runProgram (List.replicate n (rd 0x0C8#12)) s = .next t ∧
      t.replies = s.replies ++ blockWords s n ∧
      t.session.sampleIndex.toNat = s.session.sampleIndex.toNat + n ∧
      t.session.phaseAcc.toNat =
        (s.session.phaseAcc.toNat + n * s.cons.carrierFreq.toNat) % s.cons.sampleRate.toNat ∧
      t.session.scrState = s.session.scrState ∧ outRemain t = outRemain s - n ∧
      (n ≠ 0 → n = outRemain s → t.irq.pend.getLsbD 0 = true)

/-- 44_modulator.md R154: the words popped depend only on the symbols popped and on the phase at the first of them: two
machines with the same rates and phase whose blocks have the same next n symbols return the same n words. -/
def Obligations.EqualSymbolsAndPhaseGiveEqualWords : Prop :=
  ∀ (s t s' t' : State) (n : Nat),
    s.cons.sampleRate = t.cons.sampleRate → s.cons.carrierFreq = t.cons.carrierFreq →
    s.session.phaseAcc = t.session.phaseAcc →
    n ≤ outRemain s → n ≤ outRemain t →
    s.session.sampleIndex.toNat + n < 2 ^ 64 → t.session.sampleIndex.toNat + n < 2 ^ 64 →
    (∀ j, j < n → blockSym s (s.out.pos + j) = blockSym t (t.out.pos + j)) →
    runProgram (List.replicate n (rd 0x0C8#12)) s = .next s' →
    runProgram (List.replicate n (rd 0x0C8#12)) t = .next t' →
    ∃ ws, ws.length = n ∧ s'.replies = s.replies ++ ws ∧ t'.replies = t.replies ++ ws ∧
      s'.session.phaseAcc = t'.session.phaseAcc

/-- 44_modulator.md R153, R158: the value of a sample is the unit-amplitude carrier at the phase of its symbol, between -1
and 1; symbol 0, the silence's, is the carrier -sin(theta + pi/4). -/
def Obligations.SampleValueIsAUnitCarrier : Prop :=
  ∀ (y : Symbol) (k sr : Nat),
    sampleValue y k sr = Real.sin (phaseAngle k sr + symbolPhase y) ∧
    symbolPhase 3#2 = Real.pi / 4 ∧ symbolPhase 2#2 = 3 * Real.pi / 4 ∧ symbolPhase 0#2 = 5 * Real.pi / 4 ∧
    symbolPhase 1#2 = 7 * Real.pi / 4 ∧
    -1 ≤ sampleValue y k sr ∧ sampleValue y k sr ≤ 1 ∧
    sampleValue 0#2 k sr = -Real.sin (phaseAngle k sr + Real.pi / 4)

/-- 44_modulator.md R152: the reduced numerator k = (FC * N) mod SR gives the value of the source's unreduced phase. -/
def Obligations.ReducedPhaseGivesTheSourcesValue : Prop :=
  ∀ (y : Symbol) (fc n sr : Nat), sr ≠ 0 →
    sampleValue y (fc * n % sr) sr =
      basebandEven y * Real.sin (2 * Real.pi * fc * (n / sr)) + basebandOdd y * Real.cos (2 * Real.pi * fc * (n / sr))

/-! ### Invariants -/

/-- The machine's invariant holds after hardware reset of every implementation, whatever the memories hold (in canonical
form), and so at State.reset. -/
def Obligations.ResetSatisfiesTheInvariant : Prop :=
  (∀ (p : Config.Params) (image fb : Memory),
    image.wf p.maxImage = true → fb.wf (p.maxPacket + 20) = true → Inv (State.powerOn p image fb)) ∧
  Inv State.reset

/-- Every step keeps both memories in canonical form and inside their spaces (20_memory.md R60). -/
def Obligations.StepKeepsMemoriesCanonical : Prop :=
  ∀ s t : State, MemoriesCanonical s → step s = .next t → MemoriesCanonical t

/-- 44_modulator.md R157: every step keeps k = (FC * N) mod SR. -/
def Obligations.StepKeepsThePhaseLocked : Prop :=
  ∀ s t : State, PhaseLocked s → step s = .next t → PhaseLocked t

/-- 10_state.md R23, R27, 46_pacing.md R192: every step keeps the configuration valid in every state but IDLE and ERROR. -/
def Obligations.StepKeepsTheConfigurationValidated : Prop :=
  ∀ s t : State, ConfigValidated s → step s = .next t → ConfigValidated t

/-- 10_state.md R31, R32: every step keeps a fatal code recorded exactly in ERROR, and the sticky bit set exactly with its
code. -/
def Obligations.StepKeepsErrorsRecorded : Prop :=
  ∀ s t : State, ErrorsRecorded s → step s = .next t → ErrorsRecorded t

/-- 46_pacing.md R193 to R198, 44_modulator.md R155 to R161: every step keeps the whole invariant: among others the cursor
stays a whole number of packets within the padded image, blocks start at multiples of S, and an open frame block's symbols
stay in the frame held. -/
def Obligations.StepKeepsTheInvariant : Prop :=
  ∀ s t : State, Inv s → step s = .next t → Inv t

/-- No access and no command stops the machine: from every state of the invariant a step answers a next state (60 R232 to
R236: errors are states; log 8: the model's faults are unreachable). -/
def Obligations.StepNeverStops : Prop :=
  ∀ s : State, Inv s → ∃ t, step s = .next t

/-! ### Whole runs -/

/-- 46_pacing.md R199: RUN starts a run of 2 + PL div PS + PL div U blocks; each accepted PULL opens exactly one of them and
leaves one fewer; the run is DONE exactly when none is left. -/
def Obligations.EveryPullLeavesOneBlockFewer : Prop :=
  (∀ s : State, Inv s → (s.fsm = .ready ∨ s.fsm = .done) → outRemain s = 0 →
    ∃ t, exec .run s = .next t ∧ t.fsm = .intro ∧
      pullsLeft t =
        2 + paddedLength s.pace / s.cons.packetSize.toNat + paddedLength s.pace / s.pace.unitSize.toNat) ∧
  (∀ s : State, Inv s → s.fsm.running = true → outRemain s = 0 →
    ∃ t, exec .pull s = .next t ∧ pullsLeft s = pullsLeft t + 1 ∧ t.out.kind ≠ .none ∧ t.out.pos = 0 ∧
      (t.fsm = .done ↔ pullsLeft t = 0))

/-- 46_pacing.md R203: SRESET makes two machines with the same sizes, configuration and image the same session, and from
there every command but CRC and FRAME (whose operands are ARG0 and ARG1) and every sample pop keeps them so and returns the
same words. -/
def Obligations.EncodingDependsOnlyOnItsInputs : Prop :=
  (∀ s t s' t' : State, SameInputs s t → exec .sreset s = .next s' → exec .sreset t = .next t' → SameSession s' t') ∧
  (∀ (i : Instr) (s t s' : State), i ≠ .crc → i ≠ .frame → SameSession s t → MemoriesCanonical s → MemoriesCanonical t →
    exec i s = .next s' → ∃ t', exec i t = .next t' ∧ SameSession s' t') ∧
  (∀ s t s' : State, SameSession s t → perform (rd 0x0C8#12) s = .next s' →
    ∃ t' w, perform (rd 0x0C8#12) t = .next t' ∧ SameSession s' t' ∧ s'.replies = s.replies ++ [w] ∧
      t'.replies = t.replies ++ [w])
end

