-- ==== Sys2Proof/Laws/Memory.lean ====
section
/-! SUPPORT. The byte memory's laws: a read after a write, the canonical form kept by every operation, and two canonical
memories that read alike being equal. -/

namespace Sys2Proof.Machine

@[simp] theorem Memory.read_nil (a : Nat) : Memory.read [] a = Memory.unwritten := rfl

theorem Memory.read_cons (c : Host.Cell) (m : Memory) (a : Nat) :
    Memory.read (c :: m) a = if a = c.1 then c.2 else Memory.read m a := rfl

/-- `wfFrom` of a cons, unfolded once. -/
theorem Memory.wfFrom_cons (size : Nat) (lo : Option Nat) (c : Host.Cell) (m : Memory) :
    Memory.wfFrom size lo (c :: m) = true ↔
      (∀ l, lo = some l → l < c.1) ∧ c.1 < size ∧ c.2 ≠ Memory.unwritten ∧ Memory.wfFrom size (some c.1) m = true := by
  cases lo <;> simp [Memory.wfFrom, and_assoc]

/-- A canonical memory all above `lo` reads as unwritten at and below it. -/
theorem Memory.read_of_le {size l : Nat} : ∀ {m : Memory} {a : Nat},
    Memory.wfFrom size (some l) m = true → a ≤ l → Memory.read m a = Memory.unwritten
  | [], _, _, _ => rfl
  | c :: m, a, h, ha => by
    obtain ⟨h1, -, -, h4⟩ := (Memory.wfFrom_cons size _ c m).1 h
    have hlt : l < c.1 := h1 l rfl
    rw [Memory.read_cons, if_neg (by omega)]
    exact Memory.read_of_le h4 (by omega)

/-- Reading where nothing can be listed. -/
theorem Memory.read_of_size_le {size : Nat} : ∀ {m : Memory} {lo : Option Nat} {a : Nat},
    Memory.wfFrom size lo m = true → size ≤ a → Memory.read m a = Memory.unwritten
  | [], _, _, _, _ => rfl
  | c :: m, lo, a, h, ha => by
    obtain ⟨-, h2, -, h4⟩ := (Memory.wfFrom_cons size _ c m).1 h
    rw [Memory.read_cons, if_neg (by omega)]
    exact Memory.read_of_size_le h4 ha

/-- Weakening the lower bound. -/
theorem Memory.wfFrom_mono {size : Nat} {lo lo' : Option Nat} (hlo : ∀ l, lo' = some l → ∃ k, lo = some k ∧ l ≤ k) :
    ∀ {m : Memory}, Memory.wfFrom size lo m = true → Memory.wfFrom size lo' m = true
  | [], _ => rfl
  | c :: m, h => by
    obtain ⟨h1, h2, h3, h4⟩ := (Memory.wfFrom_cons size _ c m).1 h
    refine (Memory.wfFrom_cons size _ c m).2 ⟨fun l hl => ?_, h2, h3, h4⟩
    obtain ⟨k, hk, hlk⟩ := hlo l hl
    exact lt_of_le_of_lt hlk (h1 k hk)

/-- A write above the lower bound and inside the space keeps the canonical form. -/
theorem Memory.wfFrom_write {size : Nat} {a : Nat} {v : Byte} (ha : a < size) :
    ∀ {m : Memory} {lo : Option Nat}, (∀ l, lo = some l → l < a) → Memory.wfFrom size lo m = true →
      Memory.wfFrom size lo (Memory.write m a v) = true
  | [], lo, hlo, _ => by
    by_cases hv : v = Memory.unwritten
    · simp [Memory.write, hv, Memory.wfFrom]
    · rw [Memory.write, if_neg hv]
      exact (Memory.wfFrom_cons size lo (a, v) []).2 ⟨hlo, ha, hv, rfl⟩
  | c :: m, lo, hlo, h => by
    obtain ⟨h1, h2, h3, h4⟩ := (Memory.wfFrom_cons size lo c m).1 h
    rw [Memory.write]
    by_cases hac : a < c.1
    · rw [if_pos hac]
      by_cases hv : v = Memory.unwritten
      · rw [if_pos hv]; exact h
      · rw [if_neg hv]
        refine (Memory.wfFrom_cons size lo (a, v) _).2 ⟨hlo, ha, hv, ?_⟩
        refine (Memory.wfFrom_cons size _ c m).2 ⟨fun l hl => ?_, h2, h3, h4⟩
        cases hl; exact hac
    · rw [if_neg hac]
      by_cases heq : a = c.1
      · rw [if_pos heq]
        by_cases hv : v = Memory.unwritten
        · rw [if_pos hv]
          exact Memory.wfFrom_mono (fun l hl => ⟨c.1, rfl, (h1 l hl).le⟩) h4
        · rw [if_neg hv]
          refine (Memory.wfFrom_cons size lo (a, v) m).2 ⟨hlo, ha, hv, ?_⟩
          rw [heq]; exact h4
      · rw [if_neg heq]
        refine (Memory.wfFrom_cons size lo c _).2 ⟨h1, h2, h3, Memory.wfFrom_write ha (fun l hl => ?_) h4⟩
        cases hl; omega

/-- Writing one byte keeps the canonical form. -/
theorem Memory.wf_write {size a : Nat} {m : Memory} {v : Byte} (ha : a < size) (h : m.wf size = true) :
    (m.write a v).wf size = true := Memory.wfFrom_write ha (by simp) h

/-- Writing bytes inside the space keeps the canonical form. -/
theorem Memory.wf_writeBytes {size : Nat} : ∀ {vs : List Byte} {a : Nat} {m : Memory},
    a + vs.length ≤ size → m.wf size = true → (m.writeBytes a vs).wf size = true
  | [], _, _, _, h => h
  | v :: vs, a, m, ha, h => by
    rw [List.length_cons] at ha
    rw [Memory.writeBytes]
    exact Memory.wf_writeBytes (by omega) (Memory.wf_write (by omega) h)

/-- The empty memory is canonical. -/
@[simp] theorem Memory.wf_nil (size : Nat) : Memory.wf size [] = true := rfl

/-- Whatever cells a reset event lists, the memory it makes is canonical and inside its space. -/
theorem Memory.wf_ofCells (size : Nat) (cells : List Host.Cell) : (Memory.ofCells size cells).wf size = true := by
  have step : ∀ (cs : List Host.Cell) (m : Memory), m.wf size = true →
      (cs.foldl (fun m c => if c.1 < size then Memory.write m c.1 c.2 else m) m).wf size = true := by
    intro cs
    induction cs with
    | nil => exact fun m h => h
    | cons c cs ih =>
      intro m h
      refine ih _ ?_
      dsimp only
      split
      · exact Memory.wf_write ‹_› h
      · exact h
  exact step cells [] rfl

/-- Reading where another address was written. -/
theorem Memory.read_write_other {a b : Nat} {v : Byte} (hab : b ≠ a) :
    ∀ {m : Memory}, (m.write a v).read b = m.read b
  | [] => by
    by_cases hv : v = Memory.unwritten
    · simp [Memory.write, hv]
    · simp [Memory.write, hv, Memory.read_cons, hab]
  | c :: m => by
    rw [Memory.write]
    split
    · split
      · rfl
      · rw [Memory.read_cons, if_neg hab]
    · split
      · rename_i h1 h2
        subst h2
        split
        · rw [Memory.read_cons, if_neg hab]
        · rw [Memory.read_cons, Memory.read_cons, if_neg hab, if_neg hab]
      · rw [Memory.read_cons, Memory.read_cons, Memory.read_write_other hab]

/-- Reading what was just written, in a canonical memory. -/
theorem Memory.read_write_same {size a : Nat} {v : Byte} :
    ∀ {m : Memory} {lo : Option Nat}, Memory.wfFrom size lo m = true → (m.write a v).read a = v
  | [], _, _ => by
    by_cases hv : v = Memory.unwritten
    · simp [Memory.write, hv]
    · simp [Memory.write, hv, Memory.read_cons]
  | c :: m, lo, h => by
    obtain ⟨-, -, -, h4⟩ := (Memory.wfFrom_cons size _ c m).1 h
    rw [Memory.write]
    split
    · split
      · rename_i hlt hv
        rw [Memory.read_cons, if_neg (by omega), Memory.read_of_le h4 (by omega), hv]
      · rw [Memory.read_cons, if_pos rfl]
    · split
      · rename_i h1 h2
        split
        · rename_i hv
          rw [Memory.read_of_le h4 (by omega), hv]
        · rw [Memory.read_cons, if_pos rfl]
      · rename_i h1 h2
        rw [Memory.read_cons, if_neg h2, Memory.read_write_same h4]

/-- Bytes outside a written range are as before. -/
theorem Memory.read_writeBytes_other : ∀ {vs : List Byte} {a b : Nat} {m : Memory},
    (b < a ∨ a + vs.length ≤ b) → (m.writeBytes a vs).read b = m.read b
  | [], _, _, _, _ => rfl
  | v :: vs, a, b, m, h => by
    rw [List.length_cons] at h
    rw [Memory.writeBytes, Memory.read_writeBytes_other (by omega), Memory.read_write_other (by omega)]

/-- Bytes of a written range read back. -/
theorem Memory.read_writeBytes {size : Nat} : ∀ {vs : List Byte} {a i : Nat} {m : Memory},
    m.wf size = true → a + vs.length ≤ size → (hi : i < vs.length) → (m.writeBytes a vs).read (a + i) = vs[i]
  | [], _, _, _, _, _, hi => absurd hi (by simp)
  | v :: vs, a, i, m, hm, ha, hi => by
    rw [List.length_cons] at ha hi
    rw [Memory.writeBytes]
    cases i with
    | zero =>
      rw [Memory.read_writeBytes_other (by omega)]
      exact Memory.read_write_same hm
    | succ i =>
      have := Memory.read_writeBytes (i := i) (Memory.wf_write (a := a) (v := v) (by omega) hm)
        (show a + 1 + vs.length ≤ size by omega) (by omega)
      rw [show a + (i + 1) = a + 1 + i by omega, this]
      rfl

end Sys2Proof.Machine
end

