-- ==== Sys2Proof/Laws/State.lean ====
section
/-! SUPPORT. One lemma per field per named update of the state, so that no proof unfolds a record update. An update's
lemmas are `<update>_<field>`. -/

namespace Sys2Proof.Machine


/-! ### Every field of every update, by rfl -/

@[simp] theorem pend_params (b : BitVec 4) (s : State) : (pend b s).params = s.params := rfl
@[simp] theorem pend_session (b : BitVec 4) (s : State) : (pend b s).session = s.session := rfl
@[simp] theorem pend_fsm (b : BitVec 4) (s : State) : (pend b s).fsm = s.fsm := rfl
@[simp] theorem pend_ctl (b : BitVec 4) (s : State) : (pend b s).ctl = s.ctl := rfl
@[simp] theorem pend_cons (b : BitVec 4) (s : State) : (pend b s).cons = s.cons := rfl
@[simp] theorem pend_pace (b : BitVec 4) (s : State) : (pend b s).pace = s.pace := rfl
@[simp] theorem pend_out (b : BitVec 4) (s : State) : (pend b s).out = s.out := rfl
@[simp] theorem pend_err (b : BitVec 4) (s : State) : (pend b s).err = s.err := rfl
@[simp] theorem pend_irq (b : BitVec 4) (s : State) : (pend b s).irq = ⟨s.irq.en, s.irq.pend ||| b⟩ := rfl
@[simp] theorem pend_result (b : BitVec 4) (s : State) : (pend b s).result = s.result := rfl
@[simp] theorem pend_arg0 (b : BitVec 4) (s : State) : (pend b s).arg0 = s.arg0 := rfl
@[simp] theorem pend_arg1 (b : BitVec 4) (s : State) : (pend b s).arg1 = s.arg1 := rfl
@[simp] theorem pend_imgPtr (b : BitVec 4) (s : State) : (pend b s).imgPtr = s.imgPtr := rfl
@[simp] theorem pend_image (b : BitVec 4) (s : State) : (pend b s).image = s.image := rfl
@[simp] theorem pend_fbPtr (b : BitVec 4) (s : State) : (pend b s).fbPtr = s.fbPtr := rfl
@[simp] theorem pend_frameLen (b : BitVec 4) (s : State) : (pend b s).frameLen = s.frameLen := rfl
@[simp] theorem pend_fb (b : BitVec 4) (s : State) : (pend b s).fb = s.fb := rfl
@[simp] theorem pend_pending (b : BitVec 4) (s : State) : (pend b s).pending = s.pending := rfl
@[simp] theorem pend_replies (b : BitVec 4) (s : State) : (pend b s).replies = s.replies := rfl
@[simp] theorem raiseFatal_params (e : FatalErr) (w : Word) (s : State) : (raiseFatal e w s).params = s.params := rfl
@[simp] theorem raiseFatal_session (e : FatalErr) (w : Word) (s : State) : (raiseFatal e w s).session = s.session := rfl
@[simp] theorem raiseFatal_fsm (e : FatalErr) (w : Word) (s : State) : (raiseFatal e w s).fsm = .error := rfl
@[simp] theorem raiseFatal_ctl (e : FatalErr) (w : Word) (s : State) : (raiseFatal e w s).ctl = s.ctl := rfl
@[simp] theorem raiseFatal_cons (e : FatalErr) (w : Word) (s : State) : (raiseFatal e w s).cons = s.cons := rfl
@[simp] theorem raiseFatal_pace (e : FatalErr) (w : Word) (s : State) : (raiseFatal e w s).pace = s.pace := rfl
@[simp] theorem raiseFatal_out (e : FatalErr) (w : Word) (s : State) : (raiseFatal e w s).out = noBlock := rfl
@[simp] theorem raiseFatal_err (e : FatalErr) (w : Word) (s : State) : (raiseFatal e w s).err = ⟨e.code, w, s.err.cmdErr, s.err.cmdErrCode⟩ := rfl
@[simp] theorem raiseFatal_irq (e : FatalErr) (w : Word) (s : State) : (raiseFatal e w s).irq = ⟨s.irq.en, s.irq.pend ||| irqFatal⟩ := rfl
@[simp] theorem raiseFatal_result (e : FatalErr) (w : Word) (s : State) : (raiseFatal e w s).result = s.result := rfl
@[simp] theorem raiseFatal_arg0 (e : FatalErr) (w : Word) (s : State) : (raiseFatal e w s).arg0 = s.arg0 := rfl
@[simp] theorem raiseFatal_arg1 (e : FatalErr) (w : Word) (s : State) : (raiseFatal e w s).arg1 = s.arg1 := rfl
@[simp] theorem raiseFatal_imgPtr (e : FatalErr) (w : Word) (s : State) : (raiseFatal e w s).imgPtr = s.imgPtr := rfl
@[simp] theorem raiseFatal_image (e : FatalErr) (w : Word) (s : State) : (raiseFatal e w s).image = s.image := rfl
@[simp] theorem raiseFatal_fbPtr (e : FatalErr) (w : Word) (s : State) : (raiseFatal e w s).fbPtr = s.fbPtr := rfl
@[simp] theorem raiseFatal_frameLen (e : FatalErr) (w : Word) (s : State) : (raiseFatal e w s).frameLen = s.frameLen := rfl
@[simp] theorem raiseFatal_fb (e : FatalErr) (w : Word) (s : State) : (raiseFatal e w s).fb = s.fb := rfl
@[simp] theorem raiseFatal_pending (e : FatalErr) (w : Word) (s : State) : (raiseFatal e w s).pending = s.pending := rfl
@[simp] theorem raiseFatal_replies (e : FatalErr) (w : Word) (s : State) : (raiseFatal e w s).replies = s.replies := rfl
@[simp] theorem raiseCmdErr_params (e : CmdErr) (s : State) : (raiseCmdErr e s).params = s.params := rfl
@[simp] theorem raiseCmdErr_session (e : CmdErr) (s : State) : (raiseCmdErr e s).session = s.session := rfl
@[simp] theorem raiseCmdErr_fsm (e : CmdErr) (s : State) : (raiseCmdErr e s).fsm = s.fsm := rfl
@[simp] theorem raiseCmdErr_ctl (e : CmdErr) (s : State) : (raiseCmdErr e s).ctl = s.ctl := rfl
@[simp] theorem raiseCmdErr_cons (e : CmdErr) (s : State) : (raiseCmdErr e s).cons = s.cons := rfl
@[simp] theorem raiseCmdErr_pace (e : CmdErr) (s : State) : (raiseCmdErr e s).pace = s.pace := rfl
@[simp] theorem raiseCmdErr_out (e : CmdErr) (s : State) : (raiseCmdErr e s).out = s.out := rfl
@[simp] theorem raiseCmdErr_err (e : CmdErr) (s : State) : (raiseCmdErr e s).err = ⟨s.err.errCode, s.err.errInfo, true, e.code⟩ := rfl
@[simp] theorem raiseCmdErr_irq (e : CmdErr) (s : State) : (raiseCmdErr e s).irq = ⟨s.irq.en, s.irq.pend ||| irqCmdErr⟩ := rfl
@[simp] theorem raiseCmdErr_result (e : CmdErr) (s : State) : (raiseCmdErr e s).result = s.result := rfl
@[simp] theorem raiseCmdErr_arg0 (e : CmdErr) (s : State) : (raiseCmdErr e s).arg0 = s.arg0 := rfl
@[simp] theorem raiseCmdErr_arg1 (e : CmdErr) (s : State) : (raiseCmdErr e s).arg1 = s.arg1 := rfl
@[simp] theorem raiseCmdErr_imgPtr (e : CmdErr) (s : State) : (raiseCmdErr e s).imgPtr = s.imgPtr := rfl
@[simp] theorem raiseCmdErr_image (e : CmdErr) (s : State) : (raiseCmdErr e s).image = s.image := rfl
@[simp] theorem raiseCmdErr_fbPtr (e : CmdErr) (s : State) : (raiseCmdErr e s).fbPtr = s.fbPtr := rfl
@[simp] theorem raiseCmdErr_frameLen (e : CmdErr) (s : State) : (raiseCmdErr e s).frameLen = s.frameLen := rfl
@[simp] theorem raiseCmdErr_fb (e : CmdErr) (s : State) : (raiseCmdErr e s).fb = s.fb := rfl
@[simp] theorem raiseCmdErr_pending (e : CmdErr) (s : State) : (raiseCmdErr e s).pending = s.pending := rfl
@[simp] theorem raiseCmdErr_replies (e : CmdErr) (s : State) : (raiseCmdErr e s).replies = s.replies := rfl
@[simp] theorem sessionReset_params (s : State) : (sessionReset s).params = s.params := rfl
@[simp] theorem sessionReset_session (s : State) : (sessionReset s).session = ⟨s.pace.scrSeed, 0, 0, false⟩ := rfl
@[simp] theorem sessionReset_fsm (s : State) : (sessionReset s).fsm = .idle := rfl
@[simp] theorem sessionReset_ctl (s : State) : (sessionReset s).ctl = ⟨0, 0, 0⟩ := rfl
@[simp] theorem sessionReset_cons (s : State) : (sessionReset s).cons = s.cons := rfl
@[simp] theorem sessionReset_pace (s : State) : (sessionReset s).pace = s.pace := rfl
@[simp] theorem sessionReset_out (s : State) : (sessionReset s).out = noBlock := rfl
@[simp] theorem sessionReset_err (s : State) : (sessionReset s).err = ⟨0, 0, s.err.cmdErr, s.err.cmdErrCode⟩ := rfl
@[simp] theorem sessionReset_irq (s : State) : (sessionReset s).irq = s.irq := rfl
@[simp] theorem sessionReset_result (s : State) : (sessionReset s).result = 0 := rfl
@[simp] theorem sessionReset_arg0 (s : State) : (sessionReset s).arg0 = s.arg0 := rfl
@[simp] theorem sessionReset_arg1 (s : State) : (sessionReset s).arg1 = s.arg1 := rfl
@[simp] theorem sessionReset_imgPtr (s : State) : (sessionReset s).imgPtr = s.imgPtr := rfl
@[simp] theorem sessionReset_image (s : State) : (sessionReset s).image = s.image := rfl
@[simp] theorem sessionReset_fbPtr (s : State) : (sessionReset s).fbPtr = s.fbPtr := rfl
@[simp] theorem sessionReset_frameLen (s : State) : (sessionReset s).frameLen = 0 := rfl
@[simp] theorem sessionReset_fb (s : State) : (sessionReset s).fb = s.fb := rfl
@[simp] theorem sessionReset_pending (s : State) : (sessionReset s).pending = s.pending := rfl
@[simp] theorem sessionReset_replies (s : State) : (sessionReset s).replies = s.replies := rfl
@[simp] theorem reply_params (w : Word) (s : State) : (reply w s).params = s.params := rfl
@[simp] theorem reply_session (w : Word) (s : State) : (reply w s).session = s.session := rfl
@[simp] theorem reply_fsm (w : Word) (s : State) : (reply w s).fsm = s.fsm := rfl
@[simp] theorem reply_ctl (w : Word) (s : State) : (reply w s).ctl = s.ctl := rfl
@[simp] theorem reply_cons (w : Word) (s : State) : (reply w s).cons = s.cons := rfl
@[simp] theorem reply_pace (w : Word) (s : State) : (reply w s).pace = s.pace := rfl
@[simp] theorem reply_out (w : Word) (s : State) : (reply w s).out = s.out := rfl
@[simp] theorem reply_err (w : Word) (s : State) : (reply w s).err = s.err := rfl
@[simp] theorem reply_irq (w : Word) (s : State) : (reply w s).irq = s.irq := rfl
@[simp] theorem reply_result (w : Word) (s : State) : (reply w s).result = s.result := rfl
@[simp] theorem reply_arg0 (w : Word) (s : State) : (reply w s).arg0 = s.arg0 := rfl
@[simp] theorem reply_arg1 (w : Word) (s : State) : (reply w s).arg1 = s.arg1 := rfl
@[simp] theorem reply_imgPtr (w : Word) (s : State) : (reply w s).imgPtr = s.imgPtr := rfl
@[simp] theorem reply_image (w : Word) (s : State) : (reply w s).image = s.image := rfl
@[simp] theorem reply_fbPtr (w : Word) (s : State) : (reply w s).fbPtr = s.fbPtr := rfl
@[simp] theorem reply_frameLen (w : Word) (s : State) : (reply w s).frameLen = s.frameLen := rfl
@[simp] theorem reply_fb (w : Word) (s : State) : (reply w s).fb = s.fb := rfl
@[simp] theorem reply_pending (w : Word) (s : State) : (reply w s).pending = s.pending := rfl
@[simp] theorem reply_replies (w : Word) (s : State) : (reply w s).replies = s.replies ++ [w] := rfl
@[simp] theorem issueCommand_params (w : Word) (s : State) : (issueCommand w s).params = s.params := rfl
@[simp] theorem issueCommand_session (w : Word) (s : State) : (issueCommand w s).session = s.session := rfl
@[simp] theorem issueCommand_fsm (w : Word) (s : State) : (issueCommand w s).fsm = s.fsm := rfl
@[simp] theorem issueCommand_ctl (w : Word) (s : State) : (issueCommand w s).ctl = s.ctl := rfl
@[simp] theorem issueCommand_cons (w : Word) (s : State) : (issueCommand w s).cons = s.cons := rfl
@[simp] theorem issueCommand_pace (w : Word) (s : State) : (issueCommand w s).pace = s.pace := rfl
@[simp] theorem issueCommand_out (w : Word) (s : State) : (issueCommand w s).out = s.out := rfl
@[simp] theorem issueCommand_err (w : Word) (s : State) : (issueCommand w s).err = s.err := rfl
@[simp] theorem issueCommand_irq (w : Word) (s : State) : (issueCommand w s).irq = s.irq := rfl
@[simp] theorem issueCommand_result (w : Word) (s : State) : (issueCommand w s).result = s.result := rfl
@[simp] theorem issueCommand_arg0 (w : Word) (s : State) : (issueCommand w s).arg0 = s.arg0 := rfl
@[simp] theorem issueCommand_arg1 (w : Word) (s : State) : (issueCommand w s).arg1 = s.arg1 := rfl
@[simp] theorem issueCommand_imgPtr (w : Word) (s : State) : (issueCommand w s).imgPtr = s.imgPtr := rfl
@[simp] theorem issueCommand_image (w : Word) (s : State) : (issueCommand w s).image = s.image := rfl
@[simp] theorem issueCommand_fbPtr (w : Word) (s : State) : (issueCommand w s).fbPtr = s.fbPtr := rfl
@[simp] theorem issueCommand_frameLen (w : Word) (s : State) : (issueCommand w s).frameLen = s.frameLen := rfl
@[simp] theorem issueCommand_fb (w : Word) (s : State) : (issueCommand w s).fb = s.fb := rfl
@[simp] theorem issueCommand_pending (w : Word) (s : State) : (issueCommand w s).pending = .write .w32 cmdOffset w :: s.pending := rfl
@[simp] theorem issueCommand_replies (w : Word) (s : State) : (issueCommand w s).replies = s.replies := rfl
@[simp] theorem afterScramble_params (bs : List Byte) (s : State) : (afterScramble bs s).params = s.params := rfl
@[simp] theorem afterScramble_session (bs : List Byte) (s : State) : (afterScramble bs s).session = ⟨keystreamAfter s.session.scrState bs, s.session.sampleIndex, s.session.phaseAcc,
      s.session.started || !bs.isEmpty⟩ := rfl
@[simp] theorem afterScramble_fsm (bs : List Byte) (s : State) : (afterScramble bs s).fsm = s.fsm := rfl
@[simp] theorem afterScramble_ctl (bs : List Byte) (s : State) : (afterScramble bs s).ctl = s.ctl := rfl
@[simp] theorem afterScramble_cons (bs : List Byte) (s : State) : (afterScramble bs s).cons = s.cons := rfl
@[simp] theorem afterScramble_pace (bs : List Byte) (s : State) : (afterScramble bs s).pace = s.pace := rfl
@[simp] theorem afterScramble_out (bs : List Byte) (s : State) : (afterScramble bs s).out = s.out := rfl
@[simp] theorem afterScramble_err (bs : List Byte) (s : State) : (afterScramble bs s).err = s.err := rfl
@[simp] theorem afterScramble_irq (bs : List Byte) (s : State) : (afterScramble bs s).irq = s.irq := rfl
@[simp] theorem afterScramble_result (bs : List Byte) (s : State) : (afterScramble bs s).result = s.result := rfl
@[simp] theorem afterScramble_arg0 (bs : List Byte) (s : State) : (afterScramble bs s).arg0 = s.arg0 := rfl
@[simp] theorem afterScramble_arg1 (bs : List Byte) (s : State) : (afterScramble bs s).arg1 = s.arg1 := rfl
@[simp] theorem afterScramble_imgPtr (bs : List Byte) (s : State) : (afterScramble bs s).imgPtr = s.imgPtr := rfl
@[simp] theorem afterScramble_image (bs : List Byte) (s : State) : (afterScramble bs s).image = s.image := rfl
@[simp] theorem afterScramble_fbPtr (bs : List Byte) (s : State) : (afterScramble bs s).fbPtr = s.fbPtr := rfl
@[simp] theorem afterScramble_frameLen (bs : List Byte) (s : State) : (afterScramble bs s).frameLen = s.frameLen := rfl
@[simp] theorem afterScramble_fb (bs : List Byte) (s : State) : (afterScramble bs s).fb = s.fb := rfl
@[simp] theorem afterScramble_pending (bs : List Byte) (s : State) : (afterScramble bs s).pending = s.pending := rfl
@[simp] theorem afterScramble_replies (bs : List Byte) (s : State) : (afterScramble bs s).replies = s.replies := rfl
@[simp] theorem pendIf_params (c : Bool) (b : BitVec 4) (s : State) : (pendIf c b s).params = s.params := rfl
@[simp] theorem pendIf_session (c : Bool) (b : BitVec 4) (s : State) : (pendIf c b s).session = s.session := rfl
@[simp] theorem pendIf_fsm (c : Bool) (b : BitVec 4) (s : State) : (pendIf c b s).fsm = s.fsm := rfl
@[simp] theorem pendIf_ctl (c : Bool) (b : BitVec 4) (s : State) : (pendIf c b s).ctl = s.ctl := rfl
@[simp] theorem pendIf_cons (c : Bool) (b : BitVec 4) (s : State) : (pendIf c b s).cons = s.cons := rfl
@[simp] theorem pendIf_pace (c : Bool) (b : BitVec 4) (s : State) : (pendIf c b s).pace = s.pace := rfl
@[simp] theorem pendIf_out (c : Bool) (b : BitVec 4) (s : State) : (pendIf c b s).out = s.out := rfl
@[simp] theorem pendIf_err (c : Bool) (b : BitVec 4) (s : State) : (pendIf c b s).err = s.err := rfl
@[simp] theorem pendIf_irq (c : Bool) (b : BitVec 4) (s : State) : (pendIf c b s).irq = ⟨s.irq.en, if c then s.irq.pend ||| b else s.irq.pend⟩ := rfl
@[simp] theorem pendIf_result (c : Bool) (b : BitVec 4) (s : State) : (pendIf c b s).result = s.result := rfl
@[simp] theorem pendIf_arg0 (c : Bool) (b : BitVec 4) (s : State) : (pendIf c b s).arg0 = s.arg0 := rfl
@[simp] theorem pendIf_arg1 (c : Bool) (b : BitVec 4) (s : State) : (pendIf c b s).arg1 = s.arg1 := rfl
@[simp] theorem pendIf_imgPtr (c : Bool) (b : BitVec 4) (s : State) : (pendIf c b s).imgPtr = s.imgPtr := rfl
@[simp] theorem pendIf_image (c : Bool) (b : BitVec 4) (s : State) : (pendIf c b s).image = s.image := rfl
@[simp] theorem pendIf_fbPtr (c : Bool) (b : BitVec 4) (s : State) : (pendIf c b s).fbPtr = s.fbPtr := rfl
@[simp] theorem pendIf_frameLen (c : Bool) (b : BitVec 4) (s : State) : (pendIf c b s).frameLen = s.frameLen := rfl
@[simp] theorem pendIf_fb (c : Bool) (b : BitVec 4) (s : State) : (pendIf c b s).fb = s.fb := rfl
@[simp] theorem pendIf_pending (c : Bool) (b : BitVec 4) (s : State) : (pendIf c b s).pending = s.pending := rfl
@[simp] theorem pendIf_replies (c : Bool) (b : BitVec 4) (s : State) : (pendIf c b s).replies = s.replies := rfl
@[simp] theorem openBlock_params (kind : OutKind) (src : OutSrc) (n : Nat) (y : Symbol) (s : State) : (openBlock kind src n y s).params = s.params := rfl
@[simp] theorem openBlock_session (kind : OutKind) (src : OutSrc) (n : Nat) (y : Symbol) (s : State) : (openBlock kind src n y s).session = s.session := rfl
@[simp] theorem openBlock_fsm (kind : OutKind) (src : OutSrc) (n : Nat) (y : Symbol) (s : State) : (openBlock kind src n y s).fsm = s.fsm := rfl
@[simp] theorem openBlock_ctl (kind : OutKind) (src : OutSrc) (n : Nat) (y : Symbol) (s : State) : (openBlock kind src n y s).ctl = s.ctl := rfl
@[simp] theorem openBlock_cons (kind : OutKind) (src : OutSrc) (n : Nat) (y : Symbol) (s : State) : (openBlock kind src n y s).cons = s.cons := rfl
@[simp] theorem openBlock_pace (kind : OutKind) (src : OutSrc) (n : Nat) (y : Symbol) (s : State) : (openBlock kind src n y s).pace = s.pace := rfl
@[simp] theorem openBlock_out (kind : OutKind) (src : OutSrc) (n : Nat) (y : Symbol) (s : State) : (openBlock kind src n y s).out = ⟨kind, src, n, y, 0⟩ := rfl
@[simp] theorem openBlock_err (kind : OutKind) (src : OutSrc) (n : Nat) (y : Symbol) (s : State) : (openBlock kind src n y s).err = s.err := rfl
@[simp] theorem openBlock_irq (kind : OutKind) (src : OutSrc) (n : Nat) (y : Symbol) (s : State) : (openBlock kind src n y s).irq = ⟨s.irq.en,
      if decide (blockSamples s.cons ⟨kind, src, n, y, 0⟩ = 0) then s.irq.pend ||| irqDrained else s.irq.pend⟩ := rfl
@[simp] theorem openBlock_result (kind : OutKind) (src : OutSrc) (n : Nat) (y : Symbol) (s : State) : (openBlock kind src n y s).result = s.result := rfl
@[simp] theorem openBlock_arg0 (kind : OutKind) (src : OutSrc) (n : Nat) (y : Symbol) (s : State) : (openBlock kind src n y s).arg0 = s.arg0 := rfl
@[simp] theorem openBlock_arg1 (kind : OutKind) (src : OutSrc) (n : Nat) (y : Symbol) (s : State) : (openBlock kind src n y s).arg1 = s.arg1 := rfl
@[simp] theorem openBlock_imgPtr (kind : OutKind) (src : OutSrc) (n : Nat) (y : Symbol) (s : State) : (openBlock kind src n y s).imgPtr = s.imgPtr := rfl
@[simp] theorem openBlock_image (kind : OutKind) (src : OutSrc) (n : Nat) (y : Symbol) (s : State) : (openBlock kind src n y s).image = s.image := rfl
@[simp] theorem openBlock_fbPtr (kind : OutKind) (src : OutSrc) (n : Nat) (y : Symbol) (s : State) : (openBlock kind src n y s).fbPtr = s.fbPtr := rfl
@[simp] theorem openBlock_frameLen (kind : OutKind) (src : OutSrc) (n : Nat) (y : Symbol) (s : State) : (openBlock kind src n y s).frameLen = s.frameLen := rfl
@[simp] theorem openBlock_fb (kind : OutKind) (src : OutSrc) (n : Nat) (y : Symbol) (s : State) : (openBlock kind src n y s).fb = s.fb := rfl
@[simp] theorem openBlock_pending (kind : OutKind) (src : OutSrc) (n : Nat) (y : Symbol) (s : State) : (openBlock kind src n y s).pending = s.pending := rfl
@[simp] theorem openBlock_replies (kind : OutKind) (src : OutSrc) (n : Nat) (y : Symbol) (s : State) : (openBlock kind src n y s).replies = s.replies := rfl
@[simp] theorem openSilence_params (kind : OutKind) (us : Nat) (s : State) : (openSilence kind us s).params = s.params := rfl
@[simp] theorem openSilence_session (kind : OutKind) (us : Nat) (s : State) : (openSilence kind us s).session = s.session := rfl
@[simp] theorem openSilence_fsm (kind : OutKind) (us : Nat) (s : State) : (openSilence kind us s).fsm = s.fsm := rfl
@[simp] theorem openSilence_ctl (kind : OutKind) (us : Nat) (s : State) : (openSilence kind us s).ctl = s.ctl := rfl
@[simp] theorem openSilence_cons (kind : OutKind) (us : Nat) (s : State) : (openSilence kind us s).cons = s.cons := rfl
@[simp] theorem openSilence_pace (kind : OutKind) (us : Nat) (s : State) : (openSilence kind us s).pace = s.pace := rfl
@[simp] theorem openSilence_out (kind : OutKind) (us : Nat) (s : State) : (openSilence kind us s).out = ⟨kind, .zeros, blankSymbols s.cons us, 0, 0⟩ := rfl
@[simp] theorem openSilence_err (kind : OutKind) (us : Nat) (s : State) : (openSilence kind us s).err = s.err := rfl
@[simp] theorem openSilence_irq (kind : OutKind) (us : Nat) (s : State) : (openSilence kind us s).irq = (openBlock kind .zeros (blankSymbols s.cons us) 0 s).irq := rfl
@[simp] theorem openSilence_result (kind : OutKind) (us : Nat) (s : State) : (openSilence kind us s).result = s.result := rfl
@[simp] theorem openSilence_arg0 (kind : OutKind) (us : Nat) (s : State) : (openSilence kind us s).arg0 = s.arg0 := rfl
@[simp] theorem openSilence_arg1 (kind : OutKind) (us : Nat) (s : State) : (openSilence kind us s).arg1 = s.arg1 := rfl
@[simp] theorem openSilence_imgPtr (kind : OutKind) (us : Nat) (s : State) : (openSilence kind us s).imgPtr = s.imgPtr := rfl
@[simp] theorem openSilence_image (kind : OutKind) (us : Nat) (s : State) : (openSilence kind us s).image = s.image := rfl
@[simp] theorem openSilence_fbPtr (kind : OutKind) (us : Nat) (s : State) : (openSilence kind us s).fbPtr = s.fbPtr := rfl
@[simp] theorem openSilence_frameLen (kind : OutKind) (us : Nat) (s : State) : (openSilence kind us s).frameLen = s.frameLen := rfl
@[simp] theorem openSilence_fb (kind : OutKind) (us : Nat) (s : State) : (openSilence kind us s).fb = s.fb := rfl
@[simp] theorem openSilence_pending (kind : OutKind) (us : Nat) (s : State) : (openSilence kind us s).pending = s.pending := rfl
@[simp] theorem openSilence_replies (kind : OutKind) (us : Nat) (s : State) : (openSilence kind us s).replies = s.replies := rfl
@[simp] theorem frameSession_params (a n : Nat) (s : State) : (frameSession a n s).params = s.params := rfl
@[simp] theorem frameSession_session (a n : Nat) (s : State) : (frameSession a n s).session = if s.cons.scrEn then (afterScramble (paddedPayload a n s) s).session else s.session := rfl
@[simp] theorem frameSession_fsm (a n : Nat) (s : State) : (frameSession a n s).fsm = s.fsm := rfl
@[simp] theorem frameSession_ctl (a n : Nat) (s : State) : (frameSession a n s).ctl = s.ctl := rfl
@[simp] theorem frameSession_cons (a n : Nat) (s : State) : (frameSession a n s).cons = s.cons := rfl
@[simp] theorem frameSession_pace (a n : Nat) (s : State) : (frameSession a n s).pace = s.pace := rfl
@[simp] theorem frameSession_out (a n : Nat) (s : State) : (frameSession a n s).out = s.out := rfl
@[simp] theorem frameSession_err (a n : Nat) (s : State) : (frameSession a n s).err = s.err := rfl
@[simp] theorem frameSession_irq (a n : Nat) (s : State) : (frameSession a n s).irq = s.irq := rfl
@[simp] theorem frameSession_result (a n : Nat) (s : State) : (frameSession a n s).result = s.result := rfl
@[simp] theorem frameSession_arg0 (a n : Nat) (s : State) : (frameSession a n s).arg0 = s.arg0 := rfl
@[simp] theorem frameSession_arg1 (a n : Nat) (s : State) : (frameSession a n s).arg1 = s.arg1 := rfl
@[simp] theorem frameSession_imgPtr (a n : Nat) (s : State) : (frameSession a n s).imgPtr = s.imgPtr := rfl
@[simp] theorem frameSession_image (a n : Nat) (s : State) : (frameSession a n s).image = s.image := rfl
@[simp] theorem frameSession_fbPtr (a n : Nat) (s : State) : (frameSession a n s).fbPtr = s.fbPtr := rfl
@[simp] theorem frameSession_frameLen (a n : Nat) (s : State) : (frameSession a n s).frameLen = s.frameLen := rfl
@[simp] theorem frameSession_fb (a n : Nat) (s : State) : (frameSession a n s).fb = s.fb := rfl
@[simp] theorem frameSession_pending (a n : Nat) (s : State) : (frameSession a n s).pending = s.pending := rfl
@[simp] theorem frameSession_replies (a n : Nat) (s : State) : (frameSession a n s).replies = s.replies := rfl
@[simp] theorem frameOf_params (a n : Nat) (s : State) : (frameOf a n s).params = s.params := rfl
@[simp] theorem frameOf_session (a n : Nat) (s : State) : (frameOf a n s).session = (frameSession a n s).session := rfl
@[simp] theorem frameOf_fsm (a n : Nat) (s : State) : (frameOf a n s).fsm = s.fsm := rfl
@[simp] theorem frameOf_ctl (a n : Nat) (s : State) : (frameOf a n s).ctl = s.ctl := rfl
@[simp] theorem frameOf_cons (a n : Nat) (s : State) : (frameOf a n s).cons = s.cons := rfl
@[simp] theorem frameOf_pace (a n : Nat) (s : State) : (frameOf a n s).pace = s.pace := rfl
@[simp] theorem frameOf_out (a n : Nat) (s : State) : (frameOf a n s).out = s.out := rfl
@[simp] theorem frameOf_err (a n : Nat) (s : State) : (frameOf a n s).err = s.err := rfl
@[simp] theorem frameOf_irq (a n : Nat) (s : State) : (frameOf a n s).irq = s.irq := rfl
@[simp] theorem frameOf_result (a n : Nat) (s : State) : (frameOf a n s).result = crc32 (sentPayload a n s) := rfl
@[simp] theorem frameOf_arg0 (a n : Nat) (s : State) : (frameOf a n s).arg0 = s.arg0 := rfl
@[simp] theorem frameOf_arg1 (a n : Nat) (s : State) : (frameOf a n s).arg1 = s.arg1 := rfl
@[simp] theorem frameOf_imgPtr (a n : Nat) (s : State) : (frameOf a n s).imgPtr = s.imgPtr := rfl
@[simp] theorem frameOf_image (a n : Nat) (s : State) : (frameOf a n s).image = s.image := rfl
@[simp] theorem frameOf_fbPtr (a n : Nat) (s : State) : (frameOf a n s).fbPtr = s.fbPtr := rfl
@[simp] theorem frameOf_frameLen (a n : Nat) (s : State) : (frameOf a n s).frameLen = s.cons.packetSize + 20#32 := rfl
@[simp] theorem frameOf_fb (a n : Nat) (s : State) : (frameOf a n s).fb = s.fb.writeBytes 0 (frameBytes (sentPayload a n s)) := by
  rw [frameOf]
@[simp] theorem frameOf_pending (a n : Nat) (s : State) : (frameOf a n s).pending = s.pending := rfl
@[simp] theorem frameOf_replies (a n : Nat) (s : State) : (frameOf a n s).replies = s.replies := rfl
@[simp] theorem advanceSample_params (s : State) : (advanceSample s).params = s.params := rfl
@[simp] theorem advanceSample_session (s : State) : (advanceSample s).session = ⟨s.session.scrState, s.session.sampleIndex + 1#64, phaseNext s.cons s.session.phaseAcc, true⟩ := rfl
@[simp] theorem advanceSample_fsm (s : State) : (advanceSample s).fsm = s.fsm := rfl
@[simp] theorem advanceSample_ctl (s : State) : (advanceSample s).ctl = s.ctl := rfl
@[simp] theorem advanceSample_cons (s : State) : (advanceSample s).cons = s.cons := rfl
@[simp] theorem advanceSample_pace (s : State) : (advanceSample s).pace = s.pace := rfl
@[simp] theorem advanceSample_out (s : State) : (advanceSample s).out = ⟨s.out.kind, s.out.src, s.out.nsym, s.out.sym, s.out.pos + 1⟩ := rfl
@[simp] theorem advanceSample_err (s : State) : (advanceSample s).err = s.err := rfl
@[simp] theorem advanceSample_irq (s : State) : (advanceSample s).irq = ⟨s.irq.en,
      if decide (blockSamples s.cons s.out - (s.out.pos + 1) = 0) then s.irq.pend ||| irqDrained else s.irq.pend⟩ := rfl
@[simp] theorem advanceSample_result (s : State) : (advanceSample s).result = s.result := rfl
@[simp] theorem advanceSample_arg0 (s : State) : (advanceSample s).arg0 = s.arg0 := rfl
@[simp] theorem advanceSample_arg1 (s : State) : (advanceSample s).arg1 = s.arg1 := rfl
@[simp] theorem advanceSample_imgPtr (s : State) : (advanceSample s).imgPtr = s.imgPtr := rfl
@[simp] theorem advanceSample_image (s : State) : (advanceSample s).image = s.image := rfl
@[simp] theorem advanceSample_fbPtr (s : State) : (advanceSample s).fbPtr = s.fbPtr := rfl
@[simp] theorem advanceSample_frameLen (s : State) : (advanceSample s).frameLen = s.frameLen := rfl
@[simp] theorem advanceSample_fb (s : State) : (advanceSample s).fb = s.fb := rfl
@[simp] theorem advanceSample_pending (s : State) : (advanceSample s).pending = s.pending := rfl
@[simp] theorem advanceSample_replies (s : State) : (advanceSample s).replies = s.replies := rfl
@[simp] theorem invalidate_params (s : State) : (invalidate s).params = s.params := rfl
@[simp] theorem invalidate_session (s : State) : (invalidate s).session = s.session := rfl
@[simp] theorem invalidate_fsm (s : State) : (invalidate s).fsm = if s.fsm.acceptsDirect then .idle else s.fsm := rfl
@[simp] theorem invalidate_ctl (s : State) : (invalidate s).ctl = s.ctl := rfl
@[simp] theorem invalidate_cons (s : State) : (invalidate s).cons = s.cons := rfl
@[simp] theorem invalidate_pace (s : State) : (invalidate s).pace = s.pace := rfl
@[simp] theorem invalidate_out (s : State) : (invalidate s).out = s.out := rfl
@[simp] theorem invalidate_err (s : State) : (invalidate s).err = s.err := rfl
@[simp] theorem invalidate_irq (s : State) : (invalidate s).irq = s.irq := rfl
@[simp] theorem invalidate_result (s : State) : (invalidate s).result = s.result := rfl
@[simp] theorem invalidate_arg0 (s : State) : (invalidate s).arg0 = s.arg0 := rfl
@[simp] theorem invalidate_arg1 (s : State) : (invalidate s).arg1 = s.arg1 := rfl
@[simp] theorem invalidate_imgPtr (s : State) : (invalidate s).imgPtr = s.imgPtr := rfl
@[simp] theorem invalidate_image (s : State) : (invalidate s).image = s.image := rfl
@[simp] theorem invalidate_fbPtr (s : State) : (invalidate s).fbPtr = s.fbPtr := rfl
@[simp] theorem invalidate_frameLen (s : State) : (invalidate s).frameLen = s.frameLen := rfl
@[simp] theorem invalidate_fb (s : State) : (invalidate s).fb = s.fb := rfl
@[simp] theorem invalidate_pending (s : State) : (invalidate s).pending = s.pending := rfl
@[simp] theorem invalidate_replies (s : State) : (invalidate s).replies = s.replies := rfl

/-! ### Hardware reset -/

@[simp] theorem hardReset_params (i f : List Host.Cell) (s : State) : (hardReset i f s).params = s.params := rfl
@[simp] theorem hardReset_fsm (i f : List Host.Cell) (s : State) : (hardReset i f s).fsm = .idle := rfl
@[simp] theorem hardReset_session (i f : List Host.Cell) (s : State) : (hardReset i f s).session = ⟨0, 0, 0, false⟩ := rfl
@[simp] theorem hardReset_cons (i f : List Host.Cell) (s : State) : (hardReset i f s).cons = ⟨0, 0, 0, 0, false⟩ := rfl
@[simp] theorem hardReset_ctl (i f : List Host.Cell) (s : State) : (hardReset i f s).ctl = ⟨0, 0, 0⟩ := rfl
@[simp] theorem hardReset_out (i f : List Host.Cell) (s : State) : (hardReset i f s).out = noBlock := rfl
@[simp] theorem hardReset_err (i f : List Host.Cell) (s : State) : (hardReset i f s).err = ⟨0, 0, false, 0⟩ := rfl
@[simp] theorem hardReset_irq (i f : List Host.Cell) (s : State) : (hardReset i f s).irq = ⟨0, 0⟩ := rfl
@[simp] theorem hardReset_frameLen (i f : List Host.Cell) (s : State) : (hardReset i f s).frameLen = 0 := rfl
@[simp] theorem hardReset_image (i f : List Host.Cell) (s : State) :
    (hardReset i f s).image = Memory.ofCells s.params.maxImage i := rfl
@[simp] theorem hardReset_fb (i f : List Host.Cell) (s : State) :
    (hardReset i f s).fb = Memory.ofCells (s.params.maxPacket + 20) f := rfl
@[simp] theorem hardReset_pending (i f : List Host.Cell) (s : State) : (hardReset i f s).pending = s.pending := rfl
@[simp] theorem hardReset_replies (i f : List Host.Cell) (s : State) : (hardReset i f s).replies = s.replies := rfl

end Sys2Proof.Machine
end

