-- ==== Sys2Proof/Laws/Ops.lean ====
section
/-! SUPPORT. What each shared operation can do, said once: the state check, the errors, the block's arithmetic, the window's
decoder and the access rule. Proofs cite these instead of unfolding. -/

namespace Sys2Proof.Machine

/-! ### The state check -/

@[simp] theorem whenAccepted_true (s : State) (body : State → Result) : whenAccepted true s body = body s := rfl

@[simp] theorem whenAccepted_false (s : State) (body : State → Result) :
    whenAccepted false s body = .next (raiseCmdErr .cmdSeq s) := rfl

/-- A command that answers a next state either was accepted and answered it, or was refused with `CMD_SEQ`. -/
theorem whenAccepted_next {ok : Bool} {s t : State} {body : State → Result}
    (h : whenAccepted ok s body = .next t) : (ok = true ∧ body s = .next t) ∨ (ok = false ∧ t = raiseCmdErr .cmdSeq s) := by
  cases ok
  · exact .inr ⟨rfl, by simpa using h.symm⟩
  · exact .inl ⟨rfl, h⟩

/-- A command never faults on a refusal. -/
theorem whenAccepted_fault {ok : Bool} {s : State} {f : Fault} {body : State → Result}
    (h : whenAccepted ok s body = .fault f) : ok = true ∧ body s = .fault f := by
  cases ok
  · simp at h
  · exact ⟨rfl, h⟩

/-! ### Output block -/

@[simp] theorem blockSamples_zero (c : Cons) (k : OutKind) (x : OutSrc) (y : Symbol) (p : Nat) :
    blockSamples c ⟨k, x, 0, y, p⟩ = 0 := rfl

/-- `OUT_NSYM * S`, with no case for the empty block. -/
theorem blockSamples_eq (c : Cons) (o : OutBlock) : blockSamples c o = o.nsym * symbolSamples c := by
  unfold blockSamples
  split
  · rename_i h; simp [h]
  · rfl

theorem symbolSamples_eq {c : Cons} (h : c.bitRate ≠ 0) :
    symbolSamples c = c.sampleRate.toNat / c.bitRate.toNat * 2 := if_neg h

theorem drained_iff {s : State} : drained s = true ↔ blockSamples s.cons s.out ≤ s.out.pos := by
  simp [drained, outRemain, Nat.sub_eq_zero_iff_le]

theorem not_drained_iff {s : State} : drained s = false ↔ s.out.pos < blockSamples s.cons s.out := by
  rw [← Bool.not_eq_true, drained_iff, not_le]

@[simp] theorem drained_noBlock {s : State} (h : s.out = noBlock) : drained s = true := by
  simp [drained, outRemain, h, noBlock]

/-! ### Controller states -/

theorem acceptsDirect_iff {f : Fsm} : f.acceptsDirect = true ↔ f = .ready ∨ f = .done := by cases f <;> simp [Fsm.acceptsDirect]

theorem acceptsUnit_iff {f : Fsm} : f.acceptsUnit = true ↔ f = .idle ∨ f = .ready ∨ f = .done := by
  cases f <;> simp [Fsm.acceptsUnit]

theorem running_iff {f : Fsm} : f.running = true ↔ f = .intro ∨ f = .packet ∨ f = .pause ∨ f = .outro := by
  cases f <;> simp [Fsm.running]

theorem not_locked_iff {s : State} : locked s = false ↔ s.fsm = .idle ∨ s.fsm = .ready ∨ s.fsm = .done := by
  cases h : s.fsm <;> simp [locked, h, Fsm.running]

/-! ### The register window -/

/-- A sector register is decoded only below `MAX_SECTORS`. -/
theorem regAt_sect {p : Config.Params} {off : Nat} {i : Fin 128} (h : regAt p off = some (.sect i)) :
    i.val < p.maxSectors := by
  unfold regAt at h
  split at h
  · rename_i hlt
    have hno : ∀ row ∈ regMap, row.2 ≠ Reg.sect i := by
      intro row hrow
      simp only [regMap, List.mem_cons, List.not_mem_nil, or_false] at hrow
      rcases hrow with h | h | h | h | h | h | h | h | h | h | h | h | h | h | h | h | h | h | h | h | h | h | h | h |
        h | h | h | h | h | h | h | h | h | h | h | h | h | h | h | h | h | h | h | h | h | h | h <;> simp [h]
    rw [Option.map_eq_some_iff] at h
    obtain ⟨row, hfind, hrow⟩ := h
    exact absurd hrow (hno row (List.mem_of_find?_eq_some hfind))
  · split at h
    · rename_i h1 h2
      simp only [Option.some.injEq, Reg.sect.injEq] at h
      have hm := p.maxSectors_le
      subst h
      have : (off - 512) / 4 < 128 := by omega
      simp only [Fin.ofNat, Nat.mod_eq_of_lt this]
      omega
    · cases h

/-- The offset of `CMD` is `CMD`'s. -/
@[simp] theorem regAt_cmd (p : Config.Params) : regAt p cmdOffset.toNat = some .cmd := rfl

/-- A write of a FREE register reaches `IRQ_EN`, `ARG0`, `ARG1`, `IMG_PTR` and `FB_PTR`, and the controller state only
from `READY` or `DONE` to `IDLE`. -/
theorem freeWrite_eq (r : Reg) (v : Word) (s : State) :
    ∃ f e a0 a1 ip fp, (f = s.fsm ∨ s.fsm.acceptsDirect = true ∧ f = .idle) ∧
      freeWrite r v s =
        { s with fsm := f, irq := { s.irq with en := e }, arg0 := a0, arg1 := a1, imgPtr := ip, fbPtr := fp } := by
  cases r with
  | irqEn => exact ⟨_, _, _, _, _, _, .inl rfl, rfl⟩
  | arg0 => exact ⟨_, _, _, _, _, _, .inl rfl, rfl⟩
  | arg1 => exact ⟨_, _, _, _, _, _, .inl rfl, rfl⟩
  | fbPtr => exact ⟨_, _, _, _, _, _, .inl rfl, rfl⟩
  | imgPtr =>
    refine ⟨_, _, _, _, _, _, ?_, rfl⟩
    change (if s.fsm.acceptsDirect then Fsm.idle else s.fsm) = s.fsm ∨ _
    split
    · exact .inr ⟨‹_›, rfl⟩
    · exact .inl rfl
  | _ => exact ⟨_, _, _, _, _, _, .inl rfl, rfl⟩

/-! ### Scrambler and framer lengths -/

@[simp] theorem scrambled_length (x : Word) (bs : List Byte) : (scrambled x bs).length = bs.length := by
  induction bs generalizing x with
  | nil => rfl
  | cons b bs ih => simp [scrambled, ih]

@[simp] theorem imageBytes_length (s : State) (a n : Nat) : (imageBytes s a n).length = n := by simp [imageBytes]

theorem paddedPayload_length {a n : Nat} {s : State} (h : n ≤ s.cons.packetSize.toNat) :
    (paddedPayload a n s).length = s.cons.packetSize.toNat := by
  simp [paddedPayload]; omega

theorem sentPayload_length {a n : Nat} {s : State} (h : n ≤ s.cons.packetSize.toNat) :
    (sentPayload a n s).length = s.cons.packetSize.toNat := by
  unfold sentPayload; split <;> simp [paddedPayload_length h]

@[simp] theorem preamble_length : preamble.length = 16 := rfl

@[simp] theorem crcBytes_length (c : Word) : (crcBytes c).length = 4 := rfl

@[simp] theorem frameBytes_length (p : List Byte) : (frameBytes p).length = p.length + 20 := by simp [frameBytes]; omega

end Sys2Proof.Machine
end

