-- ==== Sys2Proof/Laws/PerInstr.lean ====
section
/-! SUPPORT. Statements made once for every instruction: one lemma for each constructor of Instr. -/

namespace Sys2Proof.Laws

/-- The word of a command carries the opcode of a row of the map, and leaves that row's reserved bits 0 (30_encoding.md
R81, R82). -/
def EncodedOpcode.Statement (i : Instr) : Prop :=
  ∃ row ∈ opcodeMap, row.opc = opcOf (encode i) ∧ immOf (encode i) &&& row.format.reservedMask = 0#24

/-- The two fields of a command word are the two it was made from (30_encoding.md R80). -/
theorem opcOf_commandWord (opc : Byte) (imm : BitVec 24) : opcOf (commandWord opc imm) = opc := by
  apply BitVec.eq_of_getLsbD_eq
  intro i hi
  simp only [opcOf, commandWord, BitVec.getLsbD_extractLsb', hi, decide_true, Bool.true_and, BitVec.getLsbD_append]
  rw [if_neg (by omega)]
  congr 1
  omega

theorem immOf_commandWord (opc : Byte) (imm : BitVec 24) : immOf (commandWord opc imm) = imm := by
  apply BitVec.eq_of_getLsbD_eq
  intro i hi
  simp only [immOf, commandWord, BitVec.getLsbD_extractLsb', hi, decide_true, Bool.true_and, BitVec.getLsbD_append,
    Nat.zero_add, if_true]

/-- A byte operand sets no reserved bit of format B. -/
theorem byte_reserved (b : Byte) : b.setWidth 24 &&& 0xFFFF00#24 = 0#24 := by revert b; decide +kernel

/-- A symbol operand sets no reserved bit of format Y. -/
theorem symbol_reserved (y : Symbol) : y.setWidth 24 &&& 0xFFFFFC#24 = 0#24 := by revert y; decide

/-- A command word of a row's opcode whose immediate leaves the row's reserved bits 0. -/
theorem statement_of_row {i : Instr} {row : OpRow} {imm : BitVec 24} (hrow : row ∈ opcodeMap)
    (hw : encode i = commandWord row.opc imm) (hm : imm &&& row.format.reservedMask = 0#24) : EncodedOpcode.Statement i :=
  ⟨row, hrow, by rw [hw, opcOf_commandWord], by rw [hw, immOf_commandWord]; exact hm⟩

theorem EncodedOpcode.nop : EncodedOpcode.Statement .nop :=
  statement_of_row (row := opcodeMap[0]) (List.getElem_mem _) rfl (by decide)

theorem EncodedOpcode.sreset : EncodedOpcode.Statement .sreset :=
  statement_of_row (row := opcodeMap[1]) (List.getElem_mem _) rfl (by decide)

theorem EncodedOpcode.cfgchk : EncodedOpcode.Statement .cfgchk :=
  statement_of_row (row := opcodeMap[2]) (List.getElem_mem _) rfl (by decide)

theorem EncodedOpcode.run : EncodedOpcode.Statement .run :=
  statement_of_row (row := opcodeMap[3]) (List.getElem_mem _) rfl (by decide)

theorem EncodedOpcode.pull : EncodedOpcode.Statement .pull :=
  statement_of_row (row := opcodeMap[4]) (List.getElem_mem _) rfl (by decide)

theorem EncodedOpcode.scrld : EncodedOpcode.Statement .scrld :=
  statement_of_row (row := opcodeMap[5]) (List.getElem_mem _) rfl (by decide)

theorem EncodedOpcode.scrb (b : Byte) : EncodedOpcode.Statement (.scrb b) :=
  statement_of_row (row := opcodeMap[6]) (List.getElem_mem _) rfl (byte_reserved b)

theorem EncodedOpcode.crc : EncodedOpcode.Statement .crc :=
  statement_of_row (row := opcodeMap[7]) (List.getElem_mem _) rfl (by decide)

theorem EncodedOpcode.frame : EncodedOpcode.Statement .frame :=
  statement_of_row (row := opcodeMap[8]) (List.getElem_mem _) rfl (by decide)

theorem EncodedOpcode.mapb (b : Byte) : EncodedOpcode.Statement (.mapb b) :=
  statement_of_row (row := opcodeMap[9]) (List.getElem_mem _) rfl (byte_reserved b)

theorem EncodedOpcode.mods (y : Symbol) : EncodedOpcode.Statement (.mods y) :=
  statement_of_row (row := opcodeMap[10]) (List.getElem_mem _) rfl (symbol_reserved y)

theorem EncodedOpcode.modf : EncodedOpcode.Statement .modf :=
  statement_of_row (row := opcodeMap[11]) (List.getElem_mem _) rfl (by decide)

theorem EncodedOpcode.blank (us : Nat) : EncodedOpcode.Statement (.blank us) :=
  statement_of_row (row := opcodeMap[12]) (List.getElem_mem _) rfl (BitVec.and_zero ..)

end Sys2Proof.Laws
end

