-- ==== Sys2Proof/Laws/Steps.lean ====
section
/-! SUPPORT. Everything one event can do to the machine, said once (Effect), and the proof that a step does nothing else.
An invariant is proved by one case for each constructor of Effect. -/

namespace Sys2Proof.Machine

/-- The effects of one event, each with the checks that have passed. -/
inductive Effect (s : State) : State → Prop
  | stay : Effect s s
  | cmdErr (e : CmdErr) : Effect s (raiseCmdErr e s)
  | cfgFatal (e : FatalErr) (w : Word) (hf : s.fsm.acceptsUnit = true) (hc : cfgError s = some (e, w)) :
      Effect s (raiseFatal e w s)
  | frameFatal (hf : s.fsm.acceptsDirect = true) (hd : drained s = true) :
      Effect s (raiseFatal .frameOversize s.arg1 s)
  | indexFatal (hd : drained s = false) : Effect s (raiseFatal .indexOverflow 0 s)
  | free (r : Reg) (v : Word) : Effect s (freeWrite r v s)
  | errClr : Effect s { s with err := { s.err with cmdErr := false, cmdErrCode := 0 } }
  | irqClr (m : BitVec 4) : Effect s { s with irq := { s.irq with pend := s.irq.pend &&& m } }
  | cons (r : Reg) (v : Word) (hl : locked s = false) (hs : s.session.started = false) :
      Effect s (invalidate { s with cons := consWrite r v s.cons })
  | pace (r : Reg) (v : Word) (hl : locked s = false) (hr : ∀ i, r = .sect i → i.val < s.params.maxSectors) :
      Effect s (invalidate { s with pace := paceWrite r v s.pace })
  | image (bytes : List Byte) (hl : locked s = false) (hb : s.imgPtr.toNat + bytes.length ≤ s.params.maxImage) :
      Effect s (invalidate { s with
        image := s.image.writeBytes s.imgPtr.toNat bytes
        imgPtr := s.imgPtr + BitVec.ofNat 32 bytes.length })
  | imgPtr (p : Word) : Effect s { s with imgPtr := p }
  | fbPtr (p : Word) : Effect s { s with fbPtr := p }
  | pop (y : Symbol) (hd : drained s = false) (hn : s.session.sampleIndex ≠ 0xFFFFFFFFFFFFFFFF#64)
      (hy : blockSym s s.out.pos = some y) : Effect s (advanceSample s)
  | sreset : Effect s (sessionReset s)
  | hardReset (i f : List Host.Cell) : Effect s (hardReset i f s)
  | ready (hf : s.fsm.acceptsUnit = true) (hc : cfgError s = none) : Effect s { s with fsm := .ready }
  | run (hf : s.fsm.acceptsDirect = true) (hd : drained s = true) :
      Effect s { s with ctl := ⟨0, 0, BitVec.ofNat 32 (paddedLength s.pace)⟩, fsm := .intro }
  | pullIntro (hf : s.fsm = .intro) (hd : drained s = true) : Effect s (pullIntro s)
  | pullPacket (hf : s.fsm = .packet) (hd : drained s = true) (hp : s.cons.packetSize.toNat ≤ s.params.maxPacket) :
      Effect s (pullPacket s)
  | pullPause (hf : s.fsm = .pause) (hd : drained s = true) : Effect s (pullPause s)
  | pullOutro (hf : s.fsm = .outro) (hd : drained s = true) : Effect s (pullOutro s)
  | scrld (hf : s.fsm.acceptsUnit = true) :
      Effect s { s with session := { s.session with scrState := s.pace.scrSeed } }
  | scrb (b : Byte) (hf : s.fsm.acceptsUnit = true) :
      Effect s { s with
        session := { s.session with scrState := lcgNext s.session.scrState, started := true }
        result := byteWord (b ^^^ keyByte s.session.scrState) }
  | result (w : Word) (hf : s.fsm.acceptsUnit = true) : Effect s { s with result := w }
  | frame (a n : Nat) (hf : s.fsm.acceptsDirect = true) (hd : drained s = true) (hn : n ≤ s.cons.packetSize.toNat)
      (hp : s.cons.packetSize.toNat ≤ s.params.maxPacket) : Effect s (frameOf a n s)
  | openSymbol (y : Symbol) (hf : s.fsm.acceptsDirect = true) (hd : drained s = true) :
      Effect s (openBlock .raw .single 1 y s)
  | openFrame (hf : s.fsm.acceptsDirect = true) (hd : drained s = true) (hv : s.frameLen ≠ 0) :
      Effect s (openBlock .raw .framebuf (4 * s.frameLen.toNat) 0 s)
  | openSilence (us : Nat) (hf : s.fsm.acceptsDirect = true) (hd : drained s = true) :
      Effect s (openSilence .blank us s)

/-- A command's next state is one of the effects. -/
theorem exec_effect {i : Instr} {s t : State} (h : exec i s = .next t) : Effect s t := by
  cases i with
  | nop => cases h; exact .stay
  | sreset => cases h; exact .sreset
  | cfgchk =>
    change execCfgchk s = _ at h
    unfold execCfgchk at h
    obtain ⟨hf, hb⟩ | ⟨-, rfl⟩ := whenAccepted_next h
    · split at hb
      · cases hb; exact .cfgFatal _ _ hf ‹_›
      · cases hb; exact .ready hf ‹_›
    · exact .cmdErr _
  | run =>
    change execRun s = _ at h
    unfold execRun at h
    obtain ⟨hf, hb⟩ | ⟨-, rfl⟩ := whenAccepted_next h
    · rw [Bool.and_eq_true] at hf
      cases hb; exact .run hf.1 hf.2
    · exact .cmdErr _
  | pull =>
    change execPull s = _ at h
    unfold execPull at h
    obtain ⟨hf, hb⟩ | ⟨-, rfl⟩ := whenAccepted_next h
    · rw [Bool.and_eq_true] at hf
      split at hb
      · cases hb; exact .pullIntro ‹_› hf.2
      · split at hb
        · cases hb; exact .pullPacket ‹_› hf.2 (by simpa [frameFits] using ‹frameFits s = true›)
        · cases hb
      · split at hb
        · cases hb; exact .pullPause ‹_› hf.2
        · cases hb
      · cases hb; exact .pullOutro ‹_› hf.2
      all_goals cases hb; exact .cmdErr _
    · exact .cmdErr _
  | scrld =>
    change execScrld s = _ at h
    unfold execScrld at h
    obtain ⟨hf, hb⟩ | ⟨-, rfl⟩ := whenAccepted_next h
    · cases hb; exact .scrld hf
    · exact .cmdErr _
  | scrb b =>
    change execScrb b s = _ at h
    unfold execScrb at h
    obtain ⟨hf, hb⟩ | ⟨-, rfl⟩ := whenAccepted_next h
    · cases hb; exact .scrb b hf
    · exact .cmdErr _
  | crc =>
    change execCrc s = _ at h
    unfold execCrc at h
    obtain ⟨hf, hb⟩ | ⟨-, rfl⟩ := whenAccepted_next h
    · split at hb
      · cases hb; exact .cmdErr _
      · cases hb; exact .result _ hf
    · exact .cmdErr _
  | frame =>
    change execFrame s = _ at h
    unfold execFrame at h
    obtain ⟨hf, hb⟩ | ⟨-, rfl⟩ := whenAccepted_next h
    · rw [Bool.and_eq_true] at hf
      split at hb
      · cases hb; exact .cmdErr _
      · split at hb
        · cases hb; exact .frameFatal hf.1 hf.2
        · split at hb
          · cases hb
            exact .frame _ _ hf.1 hf.2 (by omega) (by simpa [frameFits] using ‹frameFits s = true›)
          · cases hb
    · exact .cmdErr _
  | mapb b =>
    change execMapb b s = _ at h
    unfold execMapb at h
    obtain ⟨hf, hb⟩ | ⟨-, rfl⟩ := whenAccepted_next h
    · cases hb; exact .result _ hf
    · exact .cmdErr _
  | mods y =>
    change execMods y s = _ at h
    unfold execMods at h
    obtain ⟨hf, hb⟩ | ⟨-, rfl⟩ := whenAccepted_next h
    · rw [Bool.and_eq_true] at hf
      cases hb; exact .openSymbol y hf.1 hf.2
    · exact .cmdErr _
  | modf =>
    change execModf s = _ at h
    unfold execModf at h
    obtain ⟨hf, hb⟩ | ⟨-, rfl⟩ := whenAccepted_next h
    · rw [Bool.and_eq_true, Bool.and_eq_true] at hf
      cases hb; exact .openFrame hf.1.1 hf.1.2 (by simpa [frameValid] using hf.2)
    · exact .cmdErr _
  | blank us =>
    change execBlank us s = _ at h
    unfold execBlank at h
    obtain ⟨hf, hb⟩ | ⟨-, rfl⟩ := whenAccepted_next h
    · rw [Bool.and_eq_true] at hf
      cases hb; exact .openSilence us hf.1 hf.2
    · exact .cmdErr _

/-- A register write is one of the effects. -/
theorem hostWriteReg_effect {r : Reg} {v : Word} {s : State} (hr : ∀ i, r = .sect i → i.val < s.params.maxSectors) :
    Effect s (hostWriteReg r v s) := by
  unfold hostWriteReg
  split
  · exact .cmdErr _
  · exact .cmdErr _
  · exact .free _ _
  · split
    · exact .cmdErr _
    · rename_i h
      simp only [Bool.or_eq_true, not_or, Bool.not_eq_true] at h
      exact .cons _ _ h.1 h.2
  · split
    · exact .cmdErr _
    · exact .pace _ _ (by simpa using ‹¬locked s = true›) hr
  · split
    · exact .errClr
    · exact .stay
  · exact .irqClr _
  · have himg : ∀ bytes, Effect s (writeImage bytes s) := by
      intro bytes
      unfold writeImage
      split
      · exact .cmdErr _
      · split
        · exact .cmdErr _
        · rename_i h1 h2
          exact .image bytes (by simpa using h1) (by simpa [imgPortOut] using h2)
    split
    · exact himg _
    · exact himg _
  · exact .stay

/-- A register read is one of the effects and one returned word. -/
theorem hostReadReg_effect {r : Reg} {s t : State} (h : hostReadReg r s = .next t) :
    ∃ u w, Effect s u ∧ t = reply w u := by
  unfold hostReadReg at h
  split at h
  · unfold readOutData at h
    split at h
    · cases h; exact ⟨_, _, .cmdErr _, rfl⟩
    · rename_i hd
      rw [Bool.not_eq_true] at hd
      split at h
      · cases h; exact ⟨_, _, .indexFatal hd, rfl⟩
      · split at h
        · cases h; exact ⟨_, _, .pop _ hd ‹_› ‹_›, rfl⟩
        · cases h
  · unfold readOutPeek at h
    split at h
    · cases h; exact ⟨_, _, .stay, rfl⟩
    · split at h
      · cases h; exact ⟨_, _, .stay, rfl⟩
      · cases h
  · cases h
    unfold readImgData
    split
    · exact ⟨_, _, .cmdErr _, rfl⟩
    · exact ⟨_, _, .imgPtr _, rfl⟩
  · cases h
    unfold readImgByte
    split
    · exact ⟨_, _, .cmdErr _, rfl⟩
    · exact ⟨_, _, .imgPtr _, rfl⟩
  · cases h
    unfold readFbByte
    split
    · exact ⟨_, _, .cmdErr _, rfl⟩
    · exact ⟨_, _, .fbPtr _, rfl⟩
  · cases h; exact ⟨_, _, .stay, rfl⟩

/-- One event: an effect, and for a read the returned word. -/
theorem perform_effect {e : HostEvent} {s t : State} (h : perform e s = .next t) :
    ∃ u, Effect s u ∧ (t = u ∨ ∃ w, t = reply w u) := by
  cases e with
  | read width offset =>
    rw [perform] at h
    split at h
    · unfold hostRead at h
      split at h
      · obtain ⟨u, w, hu, rfl⟩ := hostReadReg_effect h
        exact ⟨u, hu, .inr ⟨w, rfl⟩⟩
      · cases h; exact ⟨_, .stay, .inr ⟨_, rfl⟩⟩
    · cases h; exact ⟨_, .cmdErr _, .inr ⟨_, rfl⟩⟩
  | write width offset v =>
    rw [perform] at h
    split at h
    · unfold hostWrite at h
      split at h
      · unfold writeCommand at h
        split at h
        · exact ⟨_, exec_effect h, .inl rfl⟩
        · cases h; exact ⟨_, .cmdErr _, .inl rfl⟩
      · cases h
        refine ⟨_, hostWriteReg_effect (fun i hi => ?_), .inl rfl⟩
        subst hi
        exact regAt_sect ‹_›
      · cases h; exact ⟨_, .stay, .inl rfl⟩
    · cases h; exact ⟨_, .cmdErr _, .inl rfl⟩
  | hardReset i f => cases h; exact ⟨_, .hardReset i f, .inl rfl⟩

/-- One step with an event waiting performs it on the state without it. -/
theorem step_cons {s : State} {e : HostEvent} {rest : Program} (h : s.pending = e :: rest) :
    step s = perform e { s with pending := rest } := by
  unfold step fetch; rw [h]

/-- One step with no event waiting changes nothing. -/
theorem step_nil {s : State} (h : s.pending = []) : step s = .next s := by
  unfold step fetch; rw [h]

/-- Everything a step can do. -/
theorem step_effect {s t : State} (h : step s = .next t) :
    t = s ∨ ∃ e rest, s.pending = e :: rest ∧
      ∃ u, Effect { s with pending := rest } u ∧ (t = u ∨ ∃ w, t = reply w u) := by
  cases hp : s.pending with
  | nil => rw [step_nil hp] at h; cases h; exact .inl rfl
  | cons e rest => rw [step_cons hp] at h; exact .inr ⟨e, rest, rfl, perform_effect h⟩

/-- An invariant that every effect keeps and that ignores the host's lists is kept by every step. -/
theorem step_keeps {P : State → Prop} (hlists : ∀ s p r, P s → P { s with pending := p, replies := r })
    (heffect : ∀ s t, P s → Effect s t → P t) {s t : State} (hs : P s) (h : step s = .next t) : P t := by
  obtain rfl | ⟨e, rest, -, u, hu, rfl | ⟨w, rfl⟩⟩ := step_effect h
  · exact hs
  · exact heffect _ _ (hlists s rest s.replies hs) hu
  · exact hlists u u.pending (u.replies ++ [w]) (heffect _ _ (hlists s rest s.replies hs) hu)

end Sys2Proof.Machine
end

