-- ==== Sys2Proof/Tests/Slice0.lean ====
section
/-! SUPPORT. Tests: expected values are the worked examples of 95_test_vectors.md or hand evaluation of the rule named. -/

namespace Sys2Proof.Tests

open Sys2Proof Sys2Proof.Machine

/-! ### Well-formedness: each check refuses an ill-formed term -/

theorem test_blank_wide_refused : (Instr.blank (2 ^ 24)).wellFormed = false := by decide
theorem test_blank_widest_accepted : (Instr.blank (2 ^ 24 - 1)).wellFormed = true := by decide
theorem test_byte_read_refused : (HostEvent.read .w8 0x008#12).wellFormed = false := by decide
theorem test_wide_write_refused : (HostEvent.write .w64 0x028#12 0).wellFormed = false := by decide
theorem test_misaligned_read_refused : (HostEvent.read .w32 0x00A#12).wellFormed = false := by decide
theorem test_misaligned_write_refused : (HostEvent.write .w32 0x029#12 0).wellFormed = false := by decide

/-! ### Decoding: words written out from the tables of 30_encoding.md R81, R82 (and 95 section 2.7) -/

theorem test_decode_nop : decode 0b00000000_000000000000000000000000#32 = .ok .nop := by decide
theorem test_decode_sreset : decode 0b00000001_000000000000000000000000#32 = .ok .sreset := by decide
theorem test_decode_cfgchk : decode 0b00000010_000000000000000000000000#32 = .ok .cfgchk := by decide
theorem test_decode_run : decode 0b00000011_000000000000000000000000#32 = .ok .run := by decide
theorem test_decode_pull : decode 0b00000100_000000000000000000000000#32 = .ok .pull := by decide
theorem test_decode_scrld : decode 0b00010000_000000000000000000000000#32 = .ok .scrld := by decide
theorem test_decode_scrb : decode 0b00010001_000000000000000001000001#32 = .ok (.scrb 0x41#8) := by decide
theorem test_decode_crc : decode 0b00100000_000000000000000000000000#32 = .ok .crc := by decide
theorem test_decode_frame : decode 0b00100001_000000000000000000000000#32 = .ok .frame := by decide
theorem test_decode_mapb : decode 0b00110000_000000000000000011001001#32 = .ok (.mapb 0xC9#8) := by decide
theorem test_decode_mods : decode 0b01000000_000000000000000000000010#32 = .ok (.mods 2#2) := by decide
theorem test_decode_modf : decode 0b01000001_000000000000000000000000#32 = .ok .modf := by decide
theorem test_decode_blank : decode 0b01010000_000011110100001001000000#32 = .ok (.blank 1000000) := by decide
theorem test_decode_reserved :
    decode 0x00000001#32 = .error .reservedBits ∧ decode 0x11000100#32 = .error .reservedBits ∧
    decode 0x20000001#32 = .error .reservedBits ∧ decode 0x40000004#32 = .error .reservedBits ∧
    decode 0x05000000#32 = .error .reservedOpcode ∧ decode 0xFF000000#32 = .error .reservedOpcode := by decide
theorem test_decode_table_word : decodeTableWord 32 0x300000C9 = some (.mapb 0xC9#8) := by decide

/-! ### Small states -/

/-- Configuration A (95_test_vectors.md): `SR = 16`, `FC = 4`, `BR = 8`, `S = P = 4`; packets of 4 bytes. -/
def consA : Cons := ⟨16, 4, 8, 4, false⟩

/-- Program P2's pacing registers, with P3's seed and one sector. -/
def paceA : Pace where
  scrSeed := 0x12345678
  strategy := 0
  unitSize := 8
  pauseShortUs := 1000000
  pauseEraseUs := 2000000
  appStart := 0x1000
  introUs := 2000000
  outroUs := 1000000
  imageLen := 5
  sectorCount := 1
  sect := (Vector.replicate 128 0).set 0 0x1000

/-- Program P2's image, loaded, in a controller state. -/
def atState (f : Fsm) : State :=
  { State.reset with
    cons := consA, pace := paceA, fsm := f
    image := [(0, 0x01#8), (1, 0x02#8), (2, 0x03#8), (3, 0x04#8), (4, 0x05#8)] }

/-- A run of program P2: padded length 8, the cursor and count given. -/
def running (f : Fsm) (offset pktcnt : Word) : State := { atState f with ctl := ⟨offset, pktcnt, 8⟩ }

/-- A run whose intro block of 8 symbols has had 29 of its 32 samples popped. -/
def popping : State :=
  { running .packet 0 0 with session := ⟨0, 29, 4, true⟩, out := ⟨.intro, .zeros, 8, 0, 29⟩ }

/-- A fatal configuration error, taken. -/
def failed : State := raiseFatal .cfgZero 0x040#32 (atState .idle)

/-- One observation of an outcome. -/
def observe {α : Type} (f : State → α) : Result → Option α
  | .next s => some (f s)
  | .fault _ => none
  | .refused _ => none

/-! ### Instructions: at most two small tests each, one step on a small state -/

theorem test_nop : exec .nop failed = .next failed := rfl
theorem test_sreset_loads_the_seed : observe (·.session.scrState) (exec .sreset failed) = some 0x12345678#32 := by decide
theorem test_sreset_leaves_error : observe (fun t => (t.fsm, t.err.errCode)) (exec .sreset failed) = some (.idle, 0) := by
  decide
theorem test_cfgchk_ready : observe (·.fsm) (exec .cfgchk (atState .idle)) = some .ready := by decide
/-- 95_test_vectors.md 2.6: `CARRIER_FREQ = 3000` under configuration C: `P = 16`, `S = 12`. -/
theorem test_cfgchk_period :
    observe (fun t => (t.err.errCode, t.err.errInfo))
      (exec .cfgchk { atState .idle with cons := ⟨48000, 3000, 8000, 256, false⟩ }) = some (0x05#8, 0x09C#32) := by decide
/-- P2, access 15. -/
theorem test_run : observe (fun t => (t.fsm, t.ctl)) (exec .run (atState .ready)) = some (.intro, ⟨0, 0, 8⟩) := by decide
/-- P2, PULL 1: `Blank(2000000) = 8` symbols. -/
theorem test_pull_intro : observe (fun t => (t.fsm, t.out)) (exec .pull (running .intro 0 0)) =
    some (.packet, ⟨.intro, .zeros, 8, 0, 0⟩) := by decide
/-- P2, PULL 3: the payload `05 FF FF FF`. -/
theorem test_pull_last_packet : observe (fun t => (t.fsm, t.ctl.offset, t.result)) (exec .pull (running .packet 4 1)) =
    some (.pause, 8, 0x1624093C#32) := by decide +kernel
theorem test_scrld : observe (·.session) (exec .scrld (atState .done)) = some ⟨0x12345678, 0, 0, false⟩ := by decide
/-- P1, accesses 3 and 4. -/
theorem test_scrb_first : observe (fun t => (t.result, t.session.scrState)) (exec (.scrb 0x41#8) (atState .idle)) =
    some (0x41#32, 0x3C6EF35F#32) := by decide
theorem test_scrb_second :
    observe (fun t => (t.result, t.session.scrState))
      (exec (.scrb 0x42#8) { atState .idle with session := ⟨0x3C6EF35F, 0, 0, true⟩ }) =
    some (0x7E#32, 0x47502932#32) := by decide
/-- P2's first payload, `01 02 03 04`. -/
theorem test_crc : observe (·.result) (exec .crc { atState .idle with arg1 := 4 }) = some 0xB63CFBCD#32 := by
  decide +kernel
/-- P1, access 18: the range runs past the image, `38 39 FF FF`. -/
theorem test_crc_padding :
    observe (·.result)
      (exec .crc { atState .idle with
        image := [(7, 0x38#8), (8, 0x39#8)], pace := { paceA with imageLen := 9 }, arg0 := 7, arg1 := 4 }) =
    some 0x8147C3B2#32 := by decide +kernel
/-- P2's second frame: one image byte, three of padding, the CRC big-endian. -/
theorem test_frame_tail :
    observe (fun t => (List.range 8).map fun i => t.fb.read (16 + i))
      (exec .frame { atState .ready with arg0 := 4, arg1 := 1 }) =
    some [0x05#8, 0xFF#8, 0xFF#8, 0xFF#8, 0x16#8, 0x24#8, 0x09#8, 0x3C#8] := by decide +kernel
/-- P3, PULL 2: the first four keystream bytes of seed `0x12345678` are `12 75 CD 25`. -/
theorem test_frame_scrambles :
    observe (fun t => (List.range 4).map fun i => t.fb.read (16 + i))
      (exec .frame { atState .ready with cons := { consA with scrEn := true }, session := ⟨0x12345678, 0, 0, false⟩ }) =
    some [0xED#8, 0x8A#8, 0x32#8, 0xDA#8] := by decide +kernel
theorem test_mapb : observe (·.result) (exec (.mapb 0xC9#8) (atState .idle)) = some 0x01020003#32 := by decide
theorem test_mapb_edges :
    observe (·.result) (exec (.mapb 0x1B#8) (atState .done)) = some 0x03020100#32 := by decide
theorem test_mods : observe (fun t => (t.out, outRemain t)) (exec (.mods 3#2) (atState .ready)) =
    some (⟨.raw, .single, 1, 3, 0⟩, 4) := by decide
/-- 95_test_vectors.md 2.4: a frame of 24 bytes is 384 samples. -/
theorem test_modf : observe outRemain (exec .modf { atState .ready with frameLen := 24 }) = some 384 := by decide
theorem test_modf_without_frame : observe (·.err.cmdErrCode) (exec .modf (atState .ready)) = some 0x21#8 := by decide
/-- 95_test_vectors.md 2.5. -/
theorem test_blank : observe (·.out.nsym) (exec (.blank 3500000) (atState .ready)) = some 12 := by decide
theorem test_blank_empty : observe (fun t => (t.out.nsym, t.irq.pend)) (exec (.blank 999) (atState .ready)) =
    some (0, 0b0001#4) := by decide

/-! ### Host accesses -/

/-- P1, access 22: an unaligned pointer, little-endian. -/
theorem test_img_data_read :
    observe (·.replies)
      (perform (rd 0x0E4#12) { State.reset with
        imgPtr := 3, image := [(3, 0x34#8), (4, 0x35#8), (5, 0x36#8), (6, 0x37#8)] }) =
    some [0x37363534#32] := by decide
/-- P1, access 7. -/
theorem test_locked_sample_rate :
    observe (fun t => (t.err.cmdErrCode, statusWord t, t.irq.pend, t.cons.sampleRate))
      (perform (wr 0x040#12 48000) { State.reset with session := ⟨0xAAF95334, 0, 0, true⟩ }) =
    some (0x24#8, 0x60#32, 0b1000#4, 0) := by decide
/-- 70_reset_and_hazards.md R273, step 4: setting `IMG_PTR` after CFGCHK needs CFGCHK again; in a run it does not. -/
theorem test_image_pointer_invalidates :
    observe (fun t => (t.fsm, t.imgPtr)) (perform (wr 0x0E0#12 2) (atState .ready)) = some (.idle, 2) ∧
    observe (·.fsm) (perform (wr 0x0E0#12 2) popping) = some .packet := by decide
theorem test_sector_write_aligned : regAt Config.Params.reference 0x23C = some (.sect 15) := by decide
theorem test_step_runs_the_table_word :
    observe (·.result) (step (State.reset.withFetchWord 32 0x300000C9)) = some 0x01020003#32 := by decide
theorem test_pop_advances :
    observe (fun t => (t.session.sampleIndex, t.session.phaseAcc, outRemain t)) (perform (rd 0x0C8#12) popping) =
    some (30, 8, 2) := by rfl

/-! ### Witnesses: a state and operands for the hypotheses of each statement -/

theorem test_popping_inv : Inv popping where
  memories := by unfold MemoriesCanonical; decide
  sectors := by unfold SectorTailClear; decide +kernel
  validated := by intro _ _; decide
  frameHeld := by unfold FrameHeldFits; decide
  bounded := by unfold BlockBounded; decide
  backed := by unfold BlockBacked; decide
  phase := by unfold PhaseLocked; decide
  aligned := by intro _; decide
  errors := by unfold ErrorsRecorded; decide
  cursor := by unfold CursorOnTrack; decide

theorem test_intro_inv : Inv (running .intro 0 0) where
  memories := by unfold MemoriesCanonical; decide
  sectors := by unfold SectorTailClear; decide +kernel
  validated := by intro _ _; decide
  frameHeld := by unfold FrameHeldFits; decide
  bounded := by unfold BlockBounded; decide
  backed := by unfold BlockBacked; decide
  phase := by unfold PhaseLocked; decide
  aligned := by intro _; decide
  errors := by unfold ErrorsRecorded; decide
  cursor := by unfold CursorOnTrack; decide

theorem test_done_inv : Inv (atState .done) where
  memories := by unfold MemoriesCanonical; decide
  sectors := by unfold SectorTailClear; decide +kernel
  validated := by intro _ _; decide
  frameHeld := by unfold FrameHeldFits; decide
  bounded := by unfold BlockBounded; decide
  backed := by unfold BlockBacked; decide
  phase := by unfold PhaseLocked; decide
  aligned := by intro _; decide
  errors := by unfold ErrorsRecorded; decide
  cursor := by unfold CursorOnTrack; decide

theorem test_legal : LegalConfig (atState .idle) where
  strategy := by decide
  rate_pos := by decide
  carrier_pos := by decide
  bit_pos := by decide
  packet_pos := by decide
  unit_pos := by decide
  carrier_dvd := by decide
  bit_dvd := by decide
  symbol_lt := by decide
  periods := by decide
  packet_fits := by decide
  packet_le_unit := by decide
  packet_dvd_unit := by decide
  image_fits := by decide
  padded_lt := by decide
  sectors := by decide

/-- Two machines at one point of one session that differ in what a session does not depend on. -/
theorem test_same_session : SameSession popping { popping with arg0 := 7, irq := ⟨1, 2⟩, fb := [(30, 0x55#8)] } where
  params := rfl
  cons := rfl
  pace := rfl
  image := rfl
  session := rfl
  fsm := rfl
  ctl := rfl
  out := rfl
  result := rfl
  frameLen := rfl
  frame := fun _ h => absurd h (Nat.not_lt_zero _)
  errCode := rfl
  errInfo := rfl

/-- DecodingAnEncodedCommandGivesIt. -/
theorem test_witness_decode : (Instr.blank (2 ^ 24 - 1)).wellFormed = true := by decide

/-- EncodingADecodedWordGivesIt. -/
theorem test_witness_encode : decode 0x50FFFFFF#32 = .ok (.blank 16777215) := by decide

/-- ReservedWordsAreIllegal: a word on each side of each bound. -/
theorem test_witness_reserved_words :
    decode 0x110000FF#32 = .ok (.scrb 0xFF#8) ∧ decode 0x11000100#32 = .error .reservedBits ∧
    decode 0x40000003#32 = .ok (.mods 3#2) ∧ decode 0x40000004#32 = .error .reservedBits ∧
    decode 0x41000000#32 = .ok .modf ∧ decode 0x42000000#32 = .error .reservedOpcode ∧
    ∀ s, exec .nop s = .next s := ⟨by decide, by decide, by decide, by decide, by decide, by decide, fun _ => rfl⟩

/-- StepRunsTheNextHostEvent: the empty list, any event, a command, a placed word. -/
theorem test_witness_step :
    State.reset.pending = [] ∧ { State.reset with pending := [rd 0x008#12] }.pending = rd 0x008#12 :: [] ∧
    { State.reset with pending := [wr 0x004#12 0x11000041#32] }.pending = .write .w32 0x004#12 0x11000041#32 :: [] ∧
    decode 0x11000041#32 = .ok (.scrb 0x41#8) ∧ decode (BitVec.ofNat 32 0x04000000) = .ok .pull := by
  refine ⟨rfl, rfl, rfl, ?_, ?_⟩ <;> decide

/-- MalformedAccessesRaiseBus: a width, and an offset, each alone. -/
theorem test_witness_malformed :
    (Width.w8 ≠ .w32 ∨ (0x000#12).toNat % 4 ≠ 0) ∧ (Width.w32 ≠ .w32 ∨ (0xFFF#12).toNat % 4 ≠ 0) := by decide

/-- ReservedSpaceReadsZeroAndIgnoresWrites: the ends of its ranges are reserved and their neighbours are not. -/
theorem test_witness_reserved_space :
    regAt Config.Params.reference 0x02C = some .arg1 ∧ regAt Config.Params.reference 0x030 = none ∧
    regAt Config.Params.reference 0x0FC = none ∧ regAt Config.Params.reference 0x100 = none ∧
    regAt Config.Params.reference 0x1FC = none ∧ regAt Config.Params.reference 0x200 = some (.sect 0) ∧
    regAt Config.Params.reference 0x23C = some (.sect 15) ∧ regAt Config.Params.reference 0x240 = none ∧
    regAt Config.Params.reference 0xFFC = none := by decide

/-- ReservedSpaceReadsZeroAndIgnoresWrites, its register clause: OUT_PEEK answers with samples remaining and without. -/
theorem test_witness_reserved_bits :
    observe (·.replies) (perform (rd 0x0CC#12) popping) = some [0x80000000#32] ∧
    observe (·.replies) (perform (rd 0x0CC#12) State.reset) = some [0#32] := by decide

/-- RegisterReadsReturnTheirState: the last sector register, and a position on each side of saturation. -/
theorem test_witness_register_reads :
    (15 : Fin 128).val < State.reset.params.maxSectors ∧
    observe (·.replies) (perform (rd 0x0D0#12) { popping with out := ⟨.blank, .zeros, 0, 0, 2 ^ 32 - 1⟩ }) =
      some [0xFFFFFFFF#32] ∧
    observe (·.replies) (perform (rd 0x0D0#12) { popping with out := ⟨.blank, .zeros, 0, 0, 2 ^ 32 + 5⟩ }) =
      some [0xFFFFFFFF#32] ∧
    observe (·.replies) (perform (rd 0x0C4#12) popping) = some [3#32] := by decide

/-- RateRegistersAreCombinational and CfgchkAcceptsALegalConfiguration. -/
theorem test_witness_legal : (atState .idle).fsm = .idle ∧ LegalConfig (atState .idle) := ⟨rfl, test_legal⟩

/-- ReadOnlyRegistersRefuseWrites: its first and last offsets, and their classes. -/
theorem test_witness_read_only :
    (regAt Config.Params.reference 0x000).map (·.accessClass) = some .ro ∧
    (regAt Config.Params.reference 0x0F4).map (·.accessClass) = some .pop ∧
    (regAt Config.Params.reference 0x0F8).map (·.accessClass) = some .ro := by decide

/-- ConfigurationWritesObeyTheLock: locked by a run, by the session alone, and open; the last sector register. -/
theorem test_witness_lock :
    popping.fsm ∈ [Fsm.intro, .packet, .pause, .outro, .error] ∧ popping.session.started = true ∧
    (atState .done).fsm ∉ [Fsm.intro, .packet, .pause, .outro, .error] ∧ (atState .done).session.started = false ∧
    (15 : Fin 128).val < (atState .done).params.maxSectors := by decide

/-- ImageWritesStoreLittleEndian and ImagePortReadsAndWritesTheImage: the last word of the image memory, and the last byte,
where IMG_DATA is out of range. -/
theorem test_witness_image_write :
    let s := { atState .done with imgPtr := 65532 }
    let b := { atState .done with imgPtr := 65535 }
    MemoriesCanonical s ∧ s.fsm = .done ∧ s.imgPtr.toNat + 4 ≤ s.params.maxImage ∧
    MemoriesCanonical b ∧ b.fsm = .done ∧ b.imgPtr.toNat + 1 ≤ b.params.maxImage ∧
    ¬ b.imgPtr.toNat + 4 ≤ b.params.maxImage := by
  unfold MemoriesCanonical; decide

/-- PortsRefuseOutOfRange: each clause, at the first pointer out of range; FB_BYTE at the last byte held and beyond it. -/
theorem test_witness_ports :
    popping.fsm = .packet ∧ (atState .error).fsm = .error ∧
    { atState .ready with imgPtr := 65533 }.params.maxImage < (65533#32).toNat + 4 ∧
    { atState .ready with imgPtr := 65536 }.params.maxImage < (65536#32).toNat + 1 ∧
    ¬ State.reset.fbPtr.toNat < State.reset.frameLen.toNat ∧
    (let s := { atState .ready with frameLen := 24, fbPtr := 23, fb := [(23, 0xCD#8)] }
     s.fbPtr.toNat < s.frameLen.toNat ∧ observe (·.replies) (perform (rd 0x0F4#12) s) = some [0xCD#32]) := by decide

/-- The legal configuration of 95_test_vectors.md 2.6, changed. -/
def configC (sr fc br ps : Word) (p : Pace → Pace) : State :=
  { State.reset with
    cons := ⟨sr, fc, br, ps, false⟩
    pace := p { State.reset.pace with unitSize := 1024, imageLen := 300 } }

/-- The controller state and the fatal record CFGCHK leaves. -/
def checked (s : State) : Option (Fsm × Byte × Word) :=
  observe (fun t => (t.fsm, t.err.errCode, t.err.errInfo)) (exec .cfgchk s)

/-- An implementation whose image memory is the largest R8 allows. -/
def largest : Config.Params :=
  { Config.Params.reference with maxImage := 2 ^ 32 - 1, maxImage_pos := by decide, maxImage_le := by decide }

/-- CfgchkReportsTheFirstFailingCheck: a state for each check of its chain, in order (95_test_vectors.md 2.6). -/
theorem test_witness_cfgchk_rates :
    [configC 48000 4000 8000 256 fun p => { p with strategy := 2 }, configC 0 4000 8000 256 id,
      configC 48000 0 8000 256 id, configC 48000 4000 0 256 id, configC 48000 4000 8000 0 id,
      configC 48000 4000 8000 256 fun p => { p with unitSize := 0 }, configC 48000 5000 8000 256 id,
      configC 48000 4000 7000 256 id, configC 48000 3000 8000 256 id, configC 0x80000000 1 1 256 id].map checked =
    [some (.error, 0x01#8, 0x060#32), some (.error, 0x02#8, 0x040#32), some (.error, 0x02#8, 0x044#32),
      some (.error, 0x02#8, 0x048#32), some (.error, 0x02#8, 0x04C#32), some (.error, 0x02#8, 0x064#32),
      some (.error, 0x03#8, 0x044#32), some (.error, 0x04#8, 0x048#32), some (.error, 0x05#8, 0x09C#32),
      some (.error, 0x05#8, 0x09C#32)] := by decide +kernel

theorem test_witness_cfgchk_sizes :
    [configC 48000 4000 8000 4096 fun p => { p with unitSize := 4096 }, configC 48000 4000 8000 2048 id,
      configC 48000 4000 8000 300 id, configC 48000 4000 8000 256 fun p => { p with imageLen := 65537 },
      { configC 48000 4000 8000 256 fun p => { p with unitSize := 0x80000100, imageLen := 0x80000101 } with
        params := largest },
      configC 48000 4000 8000 256 fun p => { p with strategy := 1, sectorCount := 17 },
      configC 48000 4000 8000 256 fun p => { p with strategy := 1, appStart := 0xFFFFFC01, imageLen := 1 },
      configC 48000 4000 8000 256 fun p => { p with strategy := 1, appStart := 0xFFFFFC00 }].map checked =
    [some (.error, 0x06#8, 0x04C#32), some (.error, 0x07#8, 0x04C#32), some (.error, 0x08#8, 0x064#32),
      some (.error, 0x09#8, 0x07C#32), some (.error, 0x09#8, 0x07C#32), some (.error, 0x0A#8, 0x080#32),
      some (.error, 0x0B#8, 0x070#32), some (.ready, 0, 0)] := by decide +kernel

/-- RunStartsTheController, ModsModfAndBlankOpenTheirBlocks: an accepting, drained state holding a frame. -/
theorem test_witness_direct :
    (atState .ready).fsm = .ready ∧ outRemain (atState .ready) = 0 ∧ (atState .done).fsm = .done ∧
    outRemain (atState .done) = 0 ∧ { atState .ready with frameLen := 24 }.frameLen ≠ 0 := by decide

/-- PullOpensIntroAndOutroSilence: both clauses. -/
theorem test_witness_pull_silence :
    (running .intro 0 0).fsm = .intro ∧ outRemain (running .intro 0 0) = 0 ∧ (running .outro 8 0).fsm = .outro ∧
    outRemain (running .outro 8 0) = 0 := by decide

/-- PullEmitsThePacketAtTheCursor. -/
theorem test_witness_pull_packet :
    let s := running .packet 4 1
    s.fsm = .packet ∧ outRemain s = 0 ∧ s.cons.packetSize.toNat ≤ s.params.maxPacket ∧
    s.fb.wf (s.params.maxPacket + 20) = true := by decide

/-- PullPausesByExactSectorStart: under sector pacing, at the chunk that starts a sector and at the next one, and under
uniform pacing. -/
theorem test_witness_pull_pause :
    let s := { running .pause 8 2 with pace := { paceA with strategy := 1 } }
    let u := { running .pause 16 2 with pace := { paceA with strategy := 1 } }
    s.fsm = .pause ∧ outRemain s = 0 ∧ s.pace.unitSize.toNat ≤ s.pace.appStart.toNat + s.ctl.offset.toNat ∧
    s.pace.strategy.getLsbD 0 = true ∧ s.pace.sectorCount.toNat ≤ s.params.maxSectors ∧
    s.pace.sect[(0 : Fin 128)].toNat = s.pace.appStart.toNat + s.ctl.offset.toNat - s.pace.unitSize.toNat ∧
    observe (·.out.kind) (exec .pull s) = some .pauseErase ∧ observe (·.out.kind) (exec .pull u) = some .pauseShort ∧
    observe (·.out.kind) (exec .pull (running .pause 8 2)) = some .pauseShort := by decide

/-- ScrldLoadsTheSeed, ScrbScramblesOneByte, MapbPacksTheSymbols, CrcChecksumsTheImageRange: an accepting state, and the
longest range. -/
theorem test_witness_unit :
    (atState .idle).fsm = .idle ∧ (atState .done).fsm = .done ∧ (0xFFFFFFFF#32).toNat + (1#32).toNat ≤ 2 ^ 32 := by decide

/-- FrameFillsTheFrameBuffer and TheFrameChecksItself. -/
theorem test_witness_frame :
    let s := { atState .ready with arg0 := 2, arg1 := 4 }
    s.fsm = .ready ∧ outRemain s = 0 ∧ s.arg0.toNat + s.arg1.toNat ≤ 2 ^ 32 ∧
    s.arg1.toNat ≤ s.cons.packetSize.toNat ∧ s.cons.packetSize.toNat ≤ s.params.maxPacket ∧
    s.fb.wf (s.params.maxPacket + 20) = true ∧ s.cons.scrEn = false := by decide

/-- CrcAndFrameCheckTheirArguments: the shortest range too long, and the shortest frame too long. -/
theorem test_witness_arguments :
    (atState .ready).fsm = .ready ∧ outRemain (atState .ready) = 0 ∧ 2 ^ 32 < (0xFFFFFFFF#32).toNat + (2#32).toNat ∧
    (atState .ready).cons.packetSize.toNat < (5#32).toNat := by decide

/-- CommandsOutOfStateRaiseCmdSeq: each clause, an undrained block included. -/
theorem test_witness_sequence :
    popping.fsm ∉ [Fsm.idle, .ready, .done] ∧ outRemain popping ≠ 0 ∧ (atState .idle).fsm ∉ [Fsm.ready, .done] ∧
    (atState .ready).frameLen = 0 ∧ (atState .done).fsm ∉ [Fsm.intro, .packet, .pause, .outro] := by decide

/-- CommandsStoreOnlyInTheFrame and CommandsKeepTheHostsRegisters: a command other than FRAME and PULL, and each of
those. -/
theorem test_witness_commands :
    (∃ t, exec .run (atState .ready) = .next t) ∧ (∃ t, exec .frame (atState .ready) = .next t) ∧
    ∃ t, exec .pull (running .packet 0 0) = .next t := ⟨⟨_, rfl⟩, ⟨_, rfl⟩, ⟨_, rfl⟩⟩

/-- FatalEntryChangesOnlyItsRecord. -/
theorem test_witness_fatal :
    ∃ t, perform (wr 0x004#12 0x02000000#32) State.reset = .next t ∧ State.reset.fsm ≠ .error ∧ t.fsm = .error :=
  ⟨raiseFatal .cfgZero 0x040#32 State.reset, rfl, by decide, rfl⟩

/-- CommandErrorEntryChangesOnlyItsRecord: a read refused by the frame port. -/
theorem test_witness_command_error :
    ∃ t, perform (rd 0x0F4#12) State.reset = .next t ∧ t.err.cmdErrCode ≠ State.reset.err.cmdErrCode ∧
      t.err.cmdErrCode ≠ 0 := ⟨reply 0 (raiseCmdErr .argRange State.reset), rfl, by decide, by decide⟩

/-- ErrorIsLeftOnlyByANewSession. -/
theorem test_witness_error :
    let s := { failed with pending := [wr 0x040#12 16] }
    s.fsm = .error ∧ s.out = ⟨.none, .none, 0, 0, 0⟩ ∧ startsSession (wr 0x040#12 16) = false ∧
    ∃ t, step s = .next t := ⟨rfl, rfl, by decide, ⟨_, rfl⟩⟩

/-- PendingBitsStayUntilTheHostClearsThem: the bit cleared by a write, and by a hardware reset. -/
theorem test_witness_pending :
    failed.irq.pend.getLsbD 2 = true ∧
    observe (·.irq.pend.getLsbD 2) (perform (wr 0x020#12 4) failed) = some false ∧
    observe (·.irq.pend.getLsbD 2) (perform (.hardReset [] []) failed) = some false := by decide

/-- SampleIndexIsNeverRewound, AnOpenBlocksSymbolsAreFixed, ARunsInputsAreLocked: a pop during a run. -/
theorem test_witness_pop :
    outRemain popping ≠ 0 ∧ popping.fsm.running = true ∧ startsSession (rd 0x0C8#12) = false ∧
    (atState .error).fsm = .error ∧ observe (·.fsm) (perform (rd 0x0C8#12) popping) = some .packet :=
  ⟨by decide, by decide, by decide, rfl, rfl⟩

/-- ScramblerStateChangesOnlyByItsCommands. -/
theorem test_witness_scrambler :
    observe (·.session.scrState) (perform (wr 0x004#12 0x10000000#32) (atState .idle)) = some 0x12345678#32 ∧
    (atState .idle).session.scrState = 0 := by decide

/-- FrameSymbolsAreTheMapperStream: the last symbol of a frame of 24 bytes. -/
theorem test_witness_symbol_stream : 95 < 4 * 24 := by decide

/-- PopProducesOneSample: underflow, overflow, and one sample of each source. -/
theorem test_witness_pop_clauses :
    outRemain State.reset = 0 ∧
    (let s := { popping with session := ⟨0, 0xFFFFFFFFFFFFFFFF, 12, true⟩ }
     outRemain s ≠ 0 ∧ s.session.sampleIndex.toNat = 2 ^ 64 - 1 ∧
     observe (·.err.errCode) (perform (rd 0x0C8#12) s) = some 0x11#8) ∧
    outRemain popping ≠ 0 ∧
    popping.session.sampleIndex.toNat < 2 ^ 64 - 1 ∧ popping.cons.sampleRate ≠ 0 ∧ popping.out.src = .zeros ∧
    outRemain { popping with out := ⟨.raw, .single, 1, 3, 3⟩ } = 1 ∧
    (let s := { popping with out := ⟨.packet, .framebuf, 96, 0, 383⟩, frameLen := 24 }
     outRemain s = 1 ∧ s.out.pos / symbolSamples s.cons < 4 * s.frameLen.toNat) := by decide

/-- DrainingEmitsTheBlocksWaveform and EqualSymbolsAndPhaseGiveEqualWords: all the samples that remain. -/
theorem test_witness_drain :
    Inv popping ∧ popping.cons.sampleRate ≠ 0 ∧ 3 ≤ outRemain popping ∧ 3 = outRemain popping ∧
    popping.session.sampleIndex.toNat + 3 < 2 ^ 64 := ⟨test_popping_inv, by decide, by decide, by decide, by decide⟩

theorem test_witness_equal_words :
    let t := { popping with out := ⟨.raw, .single, 1, 0, 1⟩, session := ⟨5, 1, 4, true⟩ }
    popping.cons.sampleRate = t.cons.sampleRate ∧ popping.cons.carrierFreq = t.cons.carrierFreq ∧
    popping.session.phaseAcc = t.session.phaseAcc ∧ 3 ≤ outRemain popping ∧ 3 ≤ outRemain t ∧
    popping.session.sampleIndex.toNat + 3 < 2 ^ 64 ∧ t.session.sampleIndex.toNat + 3 < 2 ^ 64 ∧
    (∀ j, j < 3 → blockSym popping (popping.out.pos + j) = blockSym t (t.out.pos + j)) ∧
    (∃ s', runProgram (List.replicate 3 (rd 0x0C8#12)) popping = .next s') ∧
    ∃ t', runProgram (List.replicate 3 (rd 0x0C8#12)) t = .next t' :=
  ⟨rfl, rfl, rfl, by decide, by decide, by decide, by decide, fun _ _ => rfl, ⟨_, rfl⟩, ⟨_, rfl⟩⟩

/-- ReducedPhaseGivesTheSourcesValue. -/
theorem test_witness_phase : (16 : Nat) ≠ 0 := by decide

/-- ResetSatisfiesTheInvariant. -/
theorem test_witness_reset_memories :
    Memory.wf 65536 [(0, 0x01#8), (65535, 0xFF#8)] = true ∧ Memory.wf 2068 [(2067, 0x55#8)] = true := by decide

/-- StepKeeps… and StepNeverStops: an invariant state whose next event changes the machine. -/
theorem test_witness_step_invariant :
    let s := { running .intro 0 0 with pending := [wr 0x004#12 0x04000000#32] }
    Inv s ∧ MemoriesCanonical s ∧ PhaseLocked s ∧ ConfigValidated s ∧ ErrorsRecorded s ∧
    (∃ t, step s = .next t) ∧ observe (·.fsm) (step s) = some .packet := by
  have h := test_intro_inv
  have hs : Inv { running .intro 0 0 with pending := [wr 0x004#12 0x04000000#32] } :=
    ⟨h.memories, h.sectors, h.validated, h.frameHeld, h.bounded, h.backed, h.phase, h.aligned, h.errors, h.cursor⟩
  exact ⟨hs, hs.memories, hs.phase, hs.validated, hs.errors, ⟨_, rfl⟩, by decide⟩

/-- EveryPullLeavesOneBlockFewer: both clauses. -/
theorem test_witness_run :
    Inv (atState .done) ∧ (atState .done).fsm = .done ∧ outRemain (atState .done) = 0 ∧ Inv (running .intro 0 0) ∧
    (running .intro 0 0).fsm.running = true ∧ outRemain (running .intro 0 0) = 0 :=
  ⟨test_done_inv, rfl, by decide, test_intro_inv, rfl, by decide⟩

/-- EncodingDependsOnlyOnItsInputs: each clause. -/
theorem test_witness_same_session :
    let t := { popping with arg0 := 7, irq := ⟨1, 2⟩, fb := [(30, 0x55#8)] }
    SameInputs popping t ∧ SameSession popping t ∧ MemoriesCanonical popping ∧ MemoriesCanonical t ∧
    (∃ s', exec .sreset popping = .next s') ∧ (∃ s', exec .pull popping = .next s') ∧
    ∃ s', perform (rd 0x0C8#12) popping = .next s' :=
  ⟨test_same_session.toSameInputs, test_same_session, by unfold MemoriesCanonical; decide,
    by unfold MemoriesCanonical; decide, ⟨_, rfl⟩, ⟨_, rfl⟩, ⟨_, rfl⟩⟩

end Sys2Proof.Tests
end

section
/-! SUPPORT. The facts the state statements share: the register window's decoder, and what an aligned 32-bit read or write
at a decoded or a reserved offset is (10_state.md R24 to R26, 20_memory.md R66, R69). -/

namespace Sys2Proof.Machine

/-! ### A property of every row of a written-out table -/

theorem forall_pair_mem_cons {α β : Type} {P : α → β → Prop} {a : α} {b : β} {l : List (α × β)} :
    (∀ x y, (x, y) ∈ (a, b) :: l → P x y) ↔ P a b ∧ ∀ x y, (x, y) ∈ l → P x y := by
  constructor
  · exact fun h => ⟨h a b (List.mem_cons_self ..), fun x y hxy => h x y (List.mem_cons_of_mem _ hxy)⟩
  · rintro ⟨hab, hl⟩ x y hxy
    obtain h | h := List.mem_cons.1 hxy
    · cases h; exact hab
    · exact hl x y h

theorem forall_pair_mem_nil {α β : Type} {P : α → β → Prop} :
    (∀ x y, (x, y) ∈ ([] : List (α × β)) → P x y) ↔ True :=
  ⟨fun _ => trivial, fun _ _ _ h => absurd h (List.not_mem_nil)⟩

/-! ### The decoder -/

/-- Below `0x200` the window is the register map, whatever the sizes. -/
theorem regAt_low (p : Config.Params) {n : Nat} (h : n < 0x200) :
    regAt p n = (regMap.find? (fun row => row.1 == n)).map (·.2) := if_pos h

theorem regAt_sector {p : Config.Params} {i : Fin 128} (h : i.val < p.maxSectors) :
    regAt p (0x200 + 4 * i.val) = some (.sect i) := by
  have hi := i.isLt
  rw [regAt, if_neg (by omega), if_pos ⟨by omega, by omega⟩]
  congr 2
  ext
  simp only [Fin.ofNat]
  omega

/-- From `0x100` up to the sector table nothing is decoded. -/
theorem regAt_gap (p : Config.Params) {n : Nat} (hlo : 0x100 ≤ n) (hhi : n < 0x200) : regAt p n = none := by
  have hmap : ∀ row ∈ regMap, row.1 < 0x100 := by decide
  rw [regAt_low p hhi, Option.map_eq_none_iff, List.find?_eq_none]
  intro row hrow heq
  have := hmap row hrow
  have := eq_of_beq heq
  omega

/-- Beyond the last sector nothing is decoded. -/
theorem regAt_beyond {p : Config.Params} {n : Nat} (h : 0x200 + 4 * p.maxSectors ≤ n) : regAt p n = none := by
  rw [regAt, if_neg (by omega), if_neg (by omega)]

/-- A decoded register other than a sector is a row of the map. -/
theorem mem_regMap_of_regAt {p : Config.Params} {n : Nat} {r : Reg} (h : regAt p n = some r) :
    (n, r) ∈ regMap ∨ ∃ i, r = .sect i ∧ n % 4 = 0 := by
  unfold regAt at h
  split at h
  · obtain ⟨row, hfind, rfl⟩ := Option.map_eq_some_iff.1 h
    have hn : row.1 = n := eq_of_beq (List.find?_some (p := fun row : Nat × Reg => row.1 == n) hfind)
    exact .inl (hn ▸ List.mem_of_find?_eq_some hfind)
  · split at h
    · rename_i hsect
      exact .inr ⟨_, (Option.some.inj h).symm, hsect.2⟩
    · cases h

/-- Every decoded offset is a multiple of 4. -/
theorem aligned_of_regAt {p : Config.Params} {n : Nat} {r : Reg} (h : regAt p n = some r) : n % 4 = 0 := by
  have hmap : ∀ row ∈ regMap, row.1 % 4 = 0 := by decide
  obtain hrow | ⟨-, -, h4⟩ := mem_regMap_of_regAt h
  · exact hmap _ hrow
  · exact h4

/-- `CMD`, `IRQ_PEND` and `OUT_DATA` stand at one offset each. -/
theorem offset_of_regAt_cmd {p : Config.Params} {offset : BitVec 12} (h : regAt p offset.toNat = some .cmd) :
    offset = cmdOffset := by
  obtain hrow | ⟨i, hi, -⟩ := mem_regMap_of_regAt h
  · exact BitVec.eq_of_toNat_eq (by simpa [regMap, cmdOffset] using hrow)
  · cases hi

theorem offset_of_regAt_irqPend {p : Config.Params} {offset : BitVec 12} (h : regAt p offset.toNat = some .irqPend) :
    offset = 0x020#12 := by
  obtain hrow | ⟨i, hi, -⟩ := mem_regMap_of_regAt h
  · exact BitVec.eq_of_toNat_eq (by simpa [regMap] using hrow)
  · cases hi

theorem offset_of_regAt_outData {p : Config.Params} {offset : BitVec 12} (h : regAt p offset.toNat = some .outData) :
    offset = 0x0C8#12 := by
  obtain hrow | ⟨i, hi, -⟩ := mem_regMap_of_regAt h
  · exact BitVec.eq_of_toNat_eq (by simpa [regMap] using hrow)
  · cases hi

/-! ### Aligned accesses -/

theorem perform_rd {offset : BitVec 12} (h : offset.toNat % 4 = 0) (s : State) :
    perform (rd offset) s = hostRead offset s := by
  simp [rd, perform, HostEvent.wellFormed, h]

theorem perform_wr {offset : BitVec 12} (h : offset.toNat % 4 = 0) (v : Word) (s : State) :
    perform (wr offset v) s = hostWrite offset v s := by
  simp [wr, perform, HostEvent.wellFormed, h]

theorem perform_rd_reg {offset : BitVec 12} {r : Reg} {s : State} (h : regAt s.params offset.toNat = some r) :
    perform (rd offset) s = hostReadReg r s := by
  rw [perform_rd (aligned_of_regAt h), hostRead, h]

/-- A write of any register but `CMD`. -/
theorem perform_wr_reg {offset : BitVec 12} {r : Reg} {s : State} (h : regAt s.params offset.toNat = some r)
    (hr : r ≠ .cmd) (v : Word) : perform (wr offset v) s = .next (hostWriteReg r v s) := by
  rw [perform_wr (aligned_of_regAt h), hostWrite, h]
  cases r with
  | cmd => exact absurd rfl hr
  | _ => rfl

theorem perform_rd_reserved {offset : BitVec 12} {s : State} (h4 : offset.toNat % 4 = 0)
    (h : regAt s.params offset.toNat = none) : perform (rd offset) s = .next (reply 0 s) := by
  rw [perform_rd h4, hostRead, h]

theorem perform_wr_reserved {offset : BitVec 12} {s : State} (h4 : offset.toNat % 4 = 0)
    (h : regAt s.params offset.toNat = none) (v : Word) : perform (wr offset v) s = .next s := by
  rw [perform_wr h4, hostWrite, h]

/-- The registers whose read has a side effect or an own value: the four ports and `OUT_PEEK` (10_state.md R25, R53). -/
def Reg.isPort : Reg → Bool
  | .outData | .outPeek | .imgData | .imgByte | .fbByte => true
  | _ => false

/-- A read of any register but a port returns its value and changes nothing. -/
theorem hostReadReg_value {r : Reg} (h : r.isPort = false) (s : State) :
    hostReadReg r s = .next (reply (regValue r s) s) := by
  cases r with
  | outData | outPeek | imgData | imgByte | fbByte => cases h
  | _ => rfl

theorem perform_rd_value {offset : BitVec 12} {w : Word} {s : State} (r : Reg)
    (hr : regAt s.params offset.toNat = some r) (hp : r.isPort = false) (hw : regValue r s = w) :
    perform (rd offset) s = .next { s with replies := s.replies ++ [w] } := by
  rw [perform_rd_reg hr, hostReadReg_value hp, hw, reply]

/-- A register the host may not write only raises `RO_WRITE` (10_state.md R25). -/
theorem hostWriteReg_readOnly {r : Reg} (h : r.accessClass = .ro ∨ r.accessClass = .pop) (v : Word) (s : State) :
    hostWriteReg r v s = raiseCmdErr .roWrite s := by
  unfold hostWriteReg
  rcases h with h | h <;> rw [h]

/-- The sector's register at its offset in the window. -/
theorem regAt_sectorOffset {p : Config.Params} {i : Fin 128} (h : i.val < p.maxSectors) :
    regAt p (BitVec.ofNat 12 (0x200 + 4 * i.val)).toNat = some (.sect i) := by
  have hi := i.isLt
  rw [BitVec.toNat_ofNat, Nat.mod_eq_of_lt (by omega)]
  exact regAt_sector h

end Sys2Proof.Machine
end

section
/-! SUPPORT. What the registers return and take (10_state.md R24 to R51): STATUS bit by bit, the values read, reserved
bits, the rate registers and the configuration's lock. -/

namespace Sys2Proof.Machine

/-! ### STATUS -/

theorem bit_getLsbD (b : Bool) (i : Nat) : (bit b).getLsbD i = (decide (i = 0) && b) := by
  cases b <;> simp [bit, BitVec.getLsbD_one]

/-- A flag at bit `k` of a register. -/
theorem bit_shiftLeft_getLsbD (b : Bool) (i : Nat) {k : Nat} (hk : k < 32) :
    (bit b <<< k).getLsbD i = (decide (i = k) && b) := by
  rw [BitVec.getLsbD_shiftLeft, bit_getLsbD]
  obtain hlt | rfl | hgt := Nat.lt_trichotomy i k
  · simp [hlt, hlt.ne]
  · simp [hk]
  · simp [hgt.ne', Nat.sub_ne_zero_of_lt hgt]

/-- `STATUS`, bit by bit (10_state.md R30). -/
theorem statusWord_getLsbD (s : State) (i : Nat) : (statusWord s).getLsbD i =
    (s.fsm.code.getLsbD i || (decide (i = 3) && outValid s) || (decide (i = 4) && fatalFlag s) ||
      (decide (i = 5) && s.err.cmdErr) || (decide (i = 6) && s.session.started) ||
      (decide (i = 7) && frameValid s) || (decide (i = 8) && irqLine s)) := by
  have hbit (k : Nat) (b : Bool) (hk : k < 32) := bit_shiftLeft_getLsbD b i hk
  have hcode : (s.fsm.code.setWidth 32).getLsbD i = s.fsm.code.getLsbD i := by
    rw [BitVec.getLsbD_setWidth]
    by_cases h : i < 32
    · simp [h]
    · simp [h, BitVec.getLsbD_of_ge _ i (show 3 ≤ i by omega)]
  simp only [statusWord, BitVec.getLsbD_or, hcode, hbit 3 _ (by decide), hbit 4 _ (by decide), hbit 5 _ (by decide),
    hbit 6 _ (by decide), hbit 7 _ (by decide), hbit 8 _ (by decide)]

/-- Bits [31:9] of `STATUS` read 0. -/
theorem statusWord_high {s : State} {i : Nat} (h : 9 ≤ i) : (statusWord s).getLsbD i = false := by
  have hne : i ≠ 3 ∧ i ≠ 4 ∧ i ≠ 5 ∧ i ≠ 6 ∧ i ≠ 7 ∧ i ≠ 8 := by omega
  simp [statusWord_getLsbD, hne, BitVec.getLsbD_of_ge _ i (show 3 ≤ i by omega)]

/-- Settles O9, from STATUS bit by bit. -/
theorem statusBitsReadOtherState : Obligations.StatusBitsReadOtherState := by
  refine ⟨fun s => ⟨perform_rd_value .status rfl rfl rfl, ?_, ?_, ?_, ?_, ?_, ?_, ?_, ?_⟩, fun p image fb => ?_⟩
  · have hlow : (statusWord s).extractLsb' 0 3 = s.fsm.code := by
      ext i hi
      have : i ≠ 3 ∧ i ≠ 4 ∧ i ≠ 5 ∧ i ≠ 6 ∧ i ≠ 7 ∧ i ≠ 8 := by omega
      simp [← BitVec.getLsbD_eq_getElem, hi, statusWord_getLsbD, this]
    rw [hlow]
    cases s.fsm <;> rfl
  · rw [statusWord_getLsbD]; simp [outValid]
  · rw [statusWord_getLsbD]; simp [fatalFlag]
  · rw [statusWord_getLsbD]; simp
  · rw [statusWord_getLsbD]; simp
  · rw [statusWord_getLsbD]; simp [frameValid]
  · rw [statusWord_getLsbD]; simp [irqLine]
  · ext i hi
    simp [statusWord_high]
  · simp [statusWord, State.powerOn, Fsm.code, bit, outValid, outRemain, fatalFlag, frameValid, irqLine]

/-! ### Reads of plain registers, writes of read-only ones -/

/-- `OUT_REMAIN` as it reads (10_state.md R53). -/
theorem saturate_outRemain (s : State) : saturate (outRemain s) =
    if s.out.nsym * symbolSamples s.cons - s.out.pos < 2 ^ 32
      then BitVec.ofNat 32 (s.out.nsym * symbolSamples s.cons - s.out.pos) else 0xFFFFFFFF#32 := by
  rw [outRemain, blockSamples_eq, saturate]

/-- Settles O8: each offset with its register, and each register with its value. -/
theorem registerReadsReturnTheirState : Obligations.RegisterReadsReturnTheirState := by
  intro s kind remain
  refine ⟨?_, fun i hi => perform_rd_value (.sect i) (regAt_sectorOffset hi) rfl rfl, fun v => ?_⟩
  · simp only [forall_pair_mem_cons, forall_pair_mem_nil, and_true]
    refine ⟨perform_rd_value .id rfl rfl rfl, perform_rd_value .cmd rfl rfl rfl, perform_rd_value .errCode rfl rfl rfl,
      perform_rd_value .errInfo rfl rfl rfl, perform_rd_value .cmdErrCode rfl rfl rfl,
      perform_rd_value .errClr rfl rfl rfl, perform_rd_value .irqEn rfl rfl rfl, perform_rd_value .irqPend rfl rfl rfl,
      perform_rd_value .result rfl rfl rfl, perform_rd_value .arg0 rfl rfl rfl, perform_rd_value .arg1 rfl rfl rfl,
      perform_rd_value .sampleRate rfl rfl rfl, perform_rd_value .carrierFreq rfl rfl rfl,
      perform_rd_value .bitRate rfl rfl rfl, perform_rd_value .packetSize rfl rfl rfl,
      perform_rd_value .scrCtrl rfl rfl rfl, perform_rd_value .scrSeed rfl rfl rfl,
      perform_rd_value .scrState rfl rfl rfl, perform_rd_value .strategy rfl rfl rfl,
      perform_rd_value .unitSize rfl rfl rfl, perform_rd_value .pauseShortUs rfl rfl rfl,
      perform_rd_value .pauseEraseUs rfl rfl rfl, perform_rd_value .appStart rfl rfl rfl,
      perform_rd_value .introUs rfl rfl rfl, perform_rd_value .outroUs rfl rfl rfl,
      perform_rd_value .imageLen rfl rfl rfl, perform_rd_value .sectorCount rfl rfl rfl,
      perform_rd_value .sampleIndexLo rfl rfl ?lo, perform_rd_value .sampleIndexHi rfl rfl ?hi,
      perform_rd_value .phaseAcc rfl rfl rfl, perform_rd_value .ctlOffset rfl rfl rfl,
      perform_rd_value .ctlPktcnt rfl rfl rfl, perform_rd_value .ctlPadlen rfl rfl rfl,
      perform_rd_value .outKind rfl rfl ?kind, perform_rd_value .outRemain rfl rfl (saturate_outRemain s),
      perform_rd_value .outPos rfl rfl rfl, perform_rd_value .imgPtr rfl rfl rfl,
      perform_rd_value .fbPtr rfl rfl rfl, perform_rd_value .frameLen rfl rfl rfl⟩
    case lo =>
      apply BitVec.eq_of_toNat_eq
      simp [regValue]
    case hi =>
      apply BitVec.eq_of_toNat_eq
      have := s.session.sampleIndex.isLt
      simp [regValue, Nat.shiftRight_eq_div_pow]
    case kind =>
      show s.out.kind.code.setWidth 32 = BitVec.ofNat 32 kind
      simp only [kind]
      cases s.out.kind <;> rfl
  · rw [perform_wr_reg (r := .id) rfl (by decide), hostWriteReg_readOnly (.inl rfl)]
    rfl

/-- Settles O11: the decoder makes each of the offsets a register of class RO or POP. -/
theorem readOnlyRegistersRefuseWrites : Obligations.ReadOnlyRegistersRefuseWrites := by
  intro offset v s hmem
  obtain ⟨hlt, hany⟩ : offset.toNat < 0x200 ∧
      (((regMap.find? (fun row => row.1 == offset.toNat)).map (·.2)).any fun r =>
        decide (r.accessClass = .ro) || decide (r.accessClass = .pop)) = true := by
    generalize offset.toNat = n at hmem ⊢
    revert n; decide
  rw [← regAt_low s.params hlt] at hany
  obtain ⟨r, hr, hc⟩ := (Option.any_eq_true ..).1 hany
  have hc : r.accessClass = .ro ∨ r.accessClass = .pop := by simpa using hc
  have hcmd : r ≠ .cmd := by rintro rfl; simp [Reg.accessClass] at hc
  rw [perform_wr_reg hr hcmd, hostWriteReg_readOnly hc]
  rfl

/-- Settles O10. -/
theorem rateRegistersAreCombinational : Obligations.RateRegistersAreCombinational := by
  intro s sr fc br
  have hbr : s.cons.bitRate ≠ 0 ↔ br ≠ 0 := by simp [br, BitVec.toNat_eq]
  have hfc : s.cons.carrierFreq ≠ 0 ↔ fc ≠ 0 := by simp [fc, BitVec.toNat_eq]
  refine ⟨perform_rd_value .symbolSamples rfl rfl ?_, perform_rd_value .carrierPeriod rfl rfl ?_, fun hl => ⟨?_, ?_⟩⟩
  · simp only [regValue, symbolSamplesReg, hbr]
    congr 1
    exact BitVec.eq_of_toNat_eq (by simp [sr, br])
  · simp only [regValue, carrierPeriodReg, hfc]
    rfl
  · have hpos : s.cons.bitRate ≠ 0 := hbr.2 hl.bit_pos.ne'
    rw [symbolSamplesReg, if_pos ⟨hpos, Nat.mod_eq_zero_of_dvd hl.bit_dvd⟩, symbolSamples_eq hpos, BitVec.toNat_ofNat,
      Nat.mod_eq_of_lt hl.symbol_lt]
  · have hlt : s.cons.sampleRate.toNat / s.cons.carrierFreq.toNat < 2 ^ 32 :=
      (Nat.div_le_self ..).trans_lt s.cons.sampleRate.isLt
    rw [carrierPeriodReg, if_pos ⟨hfc.2 hl.carrier_pos.ne', Nat.mod_eq_zero_of_dvd hl.carrier_dvd⟩, BitVec.toNat_ofNat,
      Nat.mod_eq_of_lt hlt, carrierPeriod]

/-! ### Reserved space -/

/-- A word whose bits from `n` on are 0 has none outside the mask of the bits below `n`. -/
theorem and_not_mask_eq_zero {w : Word} (n : Nat) (h : ∀ i, n ≤ i → w.getLsbD i = false) :
    w &&& ~~~(BitVec.ofNat 32 (2 ^ n - 1)) = 0#32 := by
  ext i hi
  by_cases hin : i < n
  · have hmask : (BitVec.ofNat 32 (2 ^ n - 1))[i] = true := by
      rw [← BitVec.getLsbD_eq_getElem, BitVec.getLsbD_ofNat]
      simp [hi, hin, Nat.testBit_two_pow_sub_one]
    simp [hmask]
  · have := h i (by omega)
    rw [BitVec.getLsbD_eq_getElem hi] at this
    simp [this]

/-- A register of `n` bits read through 32 has none beyond them. -/
theorem setWidth_and_not_mask {n : Nat} (x : BitVec n) :
    x.setWidth 32 &&& ~~~(BitVec.ofNat 32 (2 ^ n - 1)) = 0#32 :=
  and_not_mask_eq_zero n fun i hi => by simp [BitVec.getLsbD_of_ge _ i hi]

/-- The four interrupt bits of a word do not depend on the others. -/
theorem setWidth_and_mask (v : Word) : (v &&& 0xF#32).setWidth 4 = v.setWidth 4 := by
  ext i hi
  interval_cases i <;> simp

/-- Bits of `r` outside `kept` are reserved: writing them has no effect and a read, which changes nothing, returns 0 in
them (10_state.md R26). -/
def Reg.ReservesAllBut (r : Reg) (kept : Word) : Prop :=
  (∀ v s, hostWriteReg r v s = hostWriteReg r (v &&& kept) s) ∧
  ∀ s t, hostReadReg r s = .next t → ∃ w, t = reply w s ∧ w &&& ~~~kept = 0#32

theorem Reg.reservesAllBut_of_value {r : Reg} {kept : Word} (hp : r.isPort = false)
    (hv : ∀ s, regValue r s &&& ~~~kept = 0#32)
    (hw : ∀ v s, hostWriteReg r v s = hostWriteReg r (v &&& kept) s) : r.ReservesAllBut kept := by
  refine ⟨hw, fun s t h => ⟨regValue r s, ?_, hv s⟩⟩
  rw [hostReadReg_value hp] at h
  cases h; rfl

/-- A register that refuses every write refuses them alike. -/
theorem hostWriteReg_readOnly_masked {r : Reg} (h : r.accessClass = .ro ∨ r.accessClass = .pop) (kept v : Word)
    (s : State) : hostWriteReg r v s = hostWriteReg r (v &&& kept) s := by
  rw [hostWriteReg_readOnly h, hostWriteReg_readOnly h]

theorem Reg.status_reserves : Reg.status.ReservesAllBut 0x1FF#32 :=
  reservesAllBut_of_value rfl (fun _ => and_not_mask_eq_zero 9 fun _ => statusWord_high)
    (hostWriteReg_readOnly_masked (.inl rfl) _)

theorem Reg.errCode_reserves : Reg.errCode.ReservesAllBut 0xFF#32 :=
  reservesAllBut_of_value rfl (fun s => setWidth_and_not_mask s.err.errCode) (hostWriteReg_readOnly_masked (.inl rfl) _)

theorem Reg.cmdErrCode_reserves : Reg.cmdErrCode.ReservesAllBut 0xFF#32 :=
  reservesAllBut_of_value rfl (fun s => setWidth_and_not_mask s.err.cmdErrCode)
    (hostWriteReg_readOnly_masked (.inl rfl) _)

theorem Reg.errClr_reserves : Reg.errClr.ReservesAllBut 0x1#32 :=
  reservesAllBut_of_value rfl (fun _ => BitVec.zero_and) fun v s => by simp [hostWriteReg, accessClass]

theorem Reg.irqEn_reserves : Reg.irqEn.ReservesAllBut 0xF#32 :=
  reservesAllBut_of_value rfl (fun s => setWidth_and_not_mask s.irq.en) fun v s => by
    simp only [hostWriteReg, accessClass, freeWrite, setWidth_and_mask]

theorem Reg.irqPend_reserves : Reg.irqPend.ReservesAllBut 0xF#32 :=
  reservesAllBut_of_value rfl (fun s => setWidth_and_not_mask s.irq.pend) fun v s => by
    simp only [hostWriteReg, accessClass, setWidth_and_mask]

theorem Reg.scrCtrl_reserves : Reg.scrCtrl.ReservesAllBut 0x1#32 :=
  reservesAllBut_of_value rfl
    (fun s => and_not_mask_eq_zero 1 fun i hi => by simp [regValue, bit_getLsbD, show i ≠ 0 by omega])
    fun v s => by simp [hostWriteReg, accessClass, consWrite]

theorem Reg.outKind_reserves : Reg.outKind.ReservesAllBut 0xF#32 :=
  reservesAllBut_of_value rfl (fun s => setWidth_and_not_mask s.out.kind.code)
    (hostWriteReg_readOnly_masked (.inl rfl) _)

/-- `OUT_PEEK` keeps bit 31 and a symbol (10_state.md R53). -/
theorem Reg.outPeek_reserves : Reg.outPeek.ReservesAllBut 0x80000003#32 := by
  have hsym : ∀ y : Symbol, (0x80000000#32 ||| y.setWidth 32) &&& ~~~0x80000003#32 = 0#32 := by decide
  refine ⟨hostWriteReg_readOnly_masked (.inl rfl) _, fun s t h => ?_⟩
  change readOutPeek s = .next t at h
  unfold readOutPeek at h
  split at h
  · cases h; exact ⟨_, rfl, BitVec.zero_and⟩
  · split at h
    · cases h; exact ⟨_, rfl, hsym _⟩
    · cases h

/-- What `ReservesAllBut` says at the register's offset. -/
theorem Reg.ReservesAllBut.perform {r : Reg} {kept : Word} (h : r.ReservesAllBut kept) {offset : BitVec 12} {v : Word}
    {s : State} (hr : regAt s.params offset.toNat = some r) (hcmd : r ≠ .cmd)
    (hp : offset ≠ 0x0CC#12 → r.isPort = false) :
    perform (wr offset v) s = perform (wr offset (v &&& kept)) s ∧
    (∀ t, perform (rd offset) s = .next t → ∃ w, t = { s with replies := s.replies ++ [w] } ∧ w &&& ~~~kept = 0#32) ∧
    (offset ≠ 0x0CC#12 → ∃ t, perform (rd offset) s = .next t) := by
  rw [perform_wr_reg hr hcmd, perform_wr_reg hr hcmd, perform_rd_reg hr]
  exact ⟨congrArg _ (h.1 v s), h.2 s, fun ho => ⟨_, hostReadReg_value (hp ho) s⟩⟩

/-- No register stands at a reserved offset (20_memory.md R69). -/
theorem regAt_reserved {p : Config.Params} {n : Nat}
    (h : n ∈ [0x030, 0x034, 0x038, 0x03C, 0x05C, 0x084, 0x088, 0x08C, 0x0A4, 0x0A8, 0x0AC, 0x0BC, 0x0D4, 0x0D8,
        0x0DC, 0x0EC, 0x0FC] ∨ (0x100 ≤ n ∧ n < 0x200) ∨ 0x200 + 4 * p.maxSectors ≤ n) : regAt p n = none := by
  obtain hlow | ⟨hlo, hhi⟩ | hbeyond := h
  · obtain ⟨hlt, hfind⟩ : n < 0x200 ∧ regMap.find? (fun row => row.1 == n) = none := by revert n; decide
    rw [regAt_low p hlt, hfind]; rfl
  · exact regAt_gap p hlo hhi
  · exact regAt_beyond hbeyond

/-- Settles O7: the decoder for the reserved offsets, ReservesAllBut of each register for the reserved bits. -/
theorem reservedSpaceReadsZeroAndIgnoresWrites : Obligations.ReservedSpaceReadsZeroAndIgnoresWrites := by
  refine ⟨fun offset v s h4 h => ?_, fun offset kept v s => ?_⟩
  · have hnone := regAt_reserved h
    exact ⟨perform_rd_reserved h4 hnone, perform_wr_reserved h4 hnone v⟩
  · revert offset kept
    simp only [forall_pair_mem_cons, forall_pair_mem_nil, and_true]
    exact ⟨Reg.status_reserves.perform rfl (by decide) fun _ => rfl,
      Reg.errCode_reserves.perform rfl (by decide) fun _ => rfl,
      Reg.cmdErrCode_reserves.perform rfl (by decide) fun _ => rfl,
      Reg.errClr_reserves.perform rfl (by decide) fun _ => rfl,
      Reg.irqEn_reserves.perform rfl (by decide) fun _ => rfl,
      Reg.irqPend_reserves.perform rfl (by decide) fun _ => rfl,
      Reg.scrCtrl_reserves.perform rfl (by decide) fun _ => rfl,
      Reg.outKind_reserves.perform rfl (by decide) fun _ => rfl,
      Reg.outPeek_reserves.perform rfl (by decide) fun h => absurd rfl h⟩

/-! ### Configuration writes -/

/-- The lock of 10_state.md R27 and the return to `IDLE`, by the controller states they name. -/
theorem locked_eq (s : State) : locked s = decide (s.fsm ∈ [Fsm.intro, .packet, .pause, .outro, .error]) := by
  unfold locked
  cases s.fsm <;> rfl

theorem invalidate_eq (s : State) :
    invalidate s = { s with fsm := if s.fsm = .ready ∨ s.fsm = .done then .idle else s.fsm } := by
  simp only [invalidate, acceptsDirect_iff]

/-- A write of a construction register at its offset: the lock, or exactly that register (10_state.md R27). -/
theorem perform_wr_cons {offset : BitVec 12} {s : State} (r : Reg) (v : Word) {c : Cons}
    (hr : regAt s.params offset.toNat = some r) (hc : r.accessClass = .cons) (hw : consWrite r v s.cons = c) :
    perform (wr offset v) s =
      if decide (s.fsm ∈ [Fsm.intro, .packet, .pause, .outro, .error]) = true ∨ s.session.started = true
        then .next (raiseCmdErr .locked s)
        else .next { s with cons := c, fsm := if s.fsm = .ready ∨ s.fsm = .done then .idle else s.fsm } := by
  have hcmd : r ≠ .cmd := by rintro rfl; cases hc
  rw [perform_wr_reg hr hcmd, hostWriteReg, hc, ← locked_eq, ← hw]
  simp only [Bool.or_eq_true, invalidate_eq]
  split <;> rfl

/-- A write of a pacing register at its offset: the lock, or exactly that register (10_state.md R27). -/
theorem perform_wr_pace {offset : BitVec 12} {s : State} (r : Reg) (v : Word) {p : Pace}
    (hr : regAt s.params offset.toNat = some r) (hc : r.accessClass = .pace) (hw : paceWrite r v s.pace = p) :
    perform (wr offset v) s =
      if decide (s.fsm ∈ [Fsm.intro, .packet, .pause, .outro, .error]) = true
        then .next (raiseCmdErr .locked s)
        else .next { s with pace := p, fsm := if s.fsm = .ready ∨ s.fsm = .done then .idle else s.fsm } := by
  have hcmd : r ≠ .cmd := by rintro rfl; cases hc
  rw [perform_wr_reg hr hcmd, hostWriteReg, hc, ← locked_eq, ← hw]
  simp only [invalidate_eq]
  split <;> rfl

/-- Settles O12: each offset with its register, and each register with the field it sets. -/
theorem configurationWritesObeyTheLock : Obligations.ConfigurationWritesObeyTheLock := by
  intro v s busy refused unchecked
  refine ⟨?_, ?_, fun i hi => perform_wr_pace (.sect i) v (regAt_sectorOffset hi) rfl rfl⟩
  · simp only [forall_pair_mem_cons, forall_pair_mem_nil, and_true]
    exact ⟨perform_wr_cons .sampleRate v rfl rfl rfl, perform_wr_cons .carrierFreq v rfl rfl rfl,
      perform_wr_cons .bitRate v rfl rfl rfl, perform_wr_cons .packetSize v rfl rfl rfl,
      perform_wr_cons .scrCtrl v rfl rfl rfl⟩
  · simp only [forall_pair_mem_cons, forall_pair_mem_nil, and_true]
    exact ⟨perform_wr_pace .scrSeed v rfl rfl rfl, perform_wr_pace .strategy v rfl rfl rfl,
      perform_wr_pace .unitSize v rfl rfl rfl, perform_wr_pace .pauseShortUs v rfl rfl rfl,
      perform_wr_pace .pauseEraseUs v rfl rfl rfl, perform_wr_pace .appStart v rfl rfl rfl,
      perform_wr_pace .introUs v rfl rfl rfl, perform_wr_pace .outroUs v rfl rfl rfl,
      perform_wr_pace .imageLen v rfl rfl rfl, perform_wr_pace .sectorCount v rfl rfl rfl⟩

/-! ### Clearing and free writes -/

/-- Settles O16. -/
theorem clearAndFreeWritesTakeEffectInEveryState : Obligations.ClearAndFreeWritesTakeEffectInEveryState := by
  intro v s
  refine ⟨?_, ⟨_, perform_wr_reg (r := .irqPend) rfl (by decide) v, fun i hi => ?_⟩,
    ⟨_, perform_wr_reg (r := .irqEn) rfl (by decide) v, fun i hi => ?_⟩,
    perform_wr_reg (r := .arg0) rfl (by decide) v, perform_wr_reg (r := .arg1) rfl (by decide) v, ?_,
    perform_wr_reg (r := .fbPtr) rfl (by decide) v⟩
  · rw [perform_wr_reg (r := .errClr) rfl (by decide)]; rfl
  · simp [hi]
  · simp [hi]
  · rw [perform_wr_reg (r := .imgPtr) rfl (by decide)]
    exact congrArg _ (invalidate_eq _)

end Sys2Proof.Machine
end

section
/-! SUPPORT. The image and frame ports (10_state.md R54, R55): an access refused, an access accepted, and a sequence of
byte accesses. -/

namespace Sys2Proof.Machine

/-! ### Writes to the image port -/

theorem writeImage_locked {s : State} (h : locked s = true) (bytes : List Byte) :
    writeImage bytes s = raiseCmdErr .locked s := if_pos h

theorem writeImage_outOfRange {s : State} {bytes : List Byte} (h : locked s = false)
    (hout : s.params.maxImage < s.imgPtr.toNat + bytes.length) : writeImage bytes s = raiseCmdErr .argRange s := by
  rw [writeImage, if_neg (by simp [h]), if_pos (by simpa [imgPortOut] using hout)]

/-- An accepted write stores its bytes, moves `IMG_PTR` past them and leaves the controller `IDLE`. -/
theorem writeImage_accepted {s : State} {bytes : List Byte} (h : locked s = false)
    (hin : s.imgPtr.toNat + bytes.length ≤ s.params.maxImage) :
    writeImage bytes s = { s with
      image := s.image.writeBytes s.imgPtr.toNat bytes
      imgPtr := BitVec.ofNat 32 (s.imgPtr.toNat + bytes.length)
      fsm := .idle } := by
  have hidle : (if s.fsm = .ready ∨ s.fsm = .done then Fsm.idle else s.fsm) = .idle := by
    obtain hf | hf | hf := not_locked_iff.1 h <;> simp [hf]
  rw [writeImage, if_neg (by simp [h]), if_neg (by simpa [imgPortOut] using hin), invalidate_eq]
  simp only [hidle, BitVec.ofNat_add, BitVec.ofNat_toNat, BitVec.setWidth_eq]

theorem writeImage_singleton {s : State} {b : Byte} (h : locked s = false)
    (hin : s.imgPtr.toNat + 1 ≤ s.params.maxImage) :
    writeImage [b] s = { s with
      image := s.image.write s.imgPtr.toNat b
      imgPtr := BitVec.ofNat 32 (s.imgPtr.toNat + 1)
      fsm := .idle } := writeImage_accepted h hin

/-- `IMG_PTR` inside the image does not wrap when it moves on by one. -/
theorem toNat_imgPtr_succ {s : State} (h : s.imgPtr.toNat + 1 ≤ s.params.maxImage) :
    (BitVec.ofNat 32 (s.imgPtr.toNat + 1)).toNat = s.imgPtr.toNat + 1 := by
  have hmax := s.params.maxImage_le
  rw [BitVec.toNat_ofNat, Nat.mod_eq_of_lt (by omega)]

/-- Writing bytes is writing the first, then the rest. -/
theorem writeImage_cons {s : State} {b : Byte} {bytes : List Byte} (h : locked s = false)
    (hin : s.imgPtr.toNat + (b :: bytes).length ≤ s.params.maxImage) :
    writeImage bytes (writeImage [b] s) = writeImage (b :: bytes) s := by
  have hlen : s.imgPtr.toNat + 1 + bytes.length ≤ s.params.maxImage := by rw [List.length_cons] at hin; omega
  have hptr := toNat_imgPtr_succ (Nat.le_of_add_right_le hlen)
  rw [writeImage_accepted (bytes := b :: bytes) h hin, writeImage_singleton h (by omega),
    writeImage_accepted rfl (by rw [hptr]; exact hlen)]
  simp only [List.length_cons, hptr, Memory.writeBytes, Nat.add_assoc, Nat.add_comm 1]

theorem perform_wr_imgData (v : Word) (s : State) :
    perform (wr 0x0E4#12 v) s = .next (writeImage (leBytes v) s) := perform_wr_reg (r := .imgData) rfl (by decide) v

theorem perform_wr_imgByte (v : Word) (s : State) :
    perform (wr 0x0E8#12 v) s = .next (writeImage [v.extractLsb' 0 8] s) :=
  perform_wr_reg (r := .imgByte) rfl (by decide) v

theorem runProgram_cons {e : HostEvent} {rest : Program} {s t : State} (h : perform e s = .next t) :
    runProgram (e :: rest) s = runProgram rest t := by
  rw [runProgram, h, andThen]

/-- Accepted `IMG_BYTE` writes in a row store their low bytes as one write of the port would. -/
theorem runProgram_wr_imgByte : ∀ (v : Word) (vs : List Word) {s : State}, locked s = false →
    s.imgPtr.toNat + (v :: vs).length ≤ s.params.maxImage →
    runProgram ((v :: vs).map (wr 0x0E8#12)) s = .next (writeImage ((v :: vs).map (·.extractLsb' 0 8)) s)
  | v, [], s, _, _ => by rw [List.map_singleton, runProgram_cons (perform_wr_imgByte v s)]; rfl
  | v, w :: vs, s, h, hin => by
    have hlen : s.imgPtr.toNat + 1 + (w :: vs).length ≤ s.params.maxImage := by
      rw [List.length_cons (a := v)] at hin; omega
    have hptr := toNat_imgPtr_succ (Nat.le_of_add_right_le hlen)
    have hfirst := writeImage_singleton (b := v.extractLsb' 0 8) h (Nat.le_of_add_right_le hlen)
    calc runProgram ((v :: w :: vs).map (wr 0x0E8#12)) s
        = runProgram ((w :: vs).map (wr 0x0E8#12)) (writeImage [v.extractLsb' 0 8] s) :=
          runProgram_cons (perform_wr_imgByte v s)
      _ = .next (writeImage ((w :: vs).map (·.extractLsb' 0 8)) (writeImage [v.extractLsb' 0 8] s)) :=
          runProgram_wr_imgByte w vs (by rw [hfirst]; rfl) (by rw [hfirst]; simpa only [hptr] using hlen)
      _ = .next (writeImage ((v :: w :: vs).map (·.extractLsb' 0 8)) s) :=
          congrArg _ (writeImage_cons h (by simpa using hin))

/-- `IMG_DATA`'s four bytes are the low bytes of the word shifted (20_memory.md R65). -/
theorem leBytes_eq (v : Word) : leBytes v = [v, v >>> 8, v >>> 16, v >>> 24].map (·.extractLsb' 0 8) := by
  have hbyte : ∀ k, (v >>> k).extractLsb' 0 8 = v.extractLsb' k 8 := by
    intro k
    ext i hi
    simp [BitVec.getElem_extractLsb', BitVec.getLsbD_ushiftRight]
  simp only [leBytes, List.map_cons, List.map_nil, hbyte]

/-- What an accepted write of `bytes` leaves in the image memory. -/
theorem read_image_writeImage {s : State} {bytes : List Byte} (hm : MemoriesCanonical s)
    (hin : s.imgPtr.toNat + bytes.length ≤ s.params.maxImage) {i : Nat} (hi : i < bytes.length) :
    (s.image.writeBytes s.imgPtr.toNat bytes).read (s.imgPtr.toNat + i) = bytes[i] :=
  Memory.read_writeBytes hm.1 hin hi

/-- Settles O13, by the memory's reads after writes. -/
theorem imageWritesStoreLittleEndian : Obligations.ImageWritesStoreLittleEndian := by
  intro v s hm hf hin
  have hin : s.imgPtr.toNat + (leBytes v).length ≤ s.params.maxImage := hin
  refine ⟨_, (perform_wr_imgData v s).trans (congrArg _ (writeImage_accepted (not_locked_iff.2 hf) hin)),
    ?_, ?_, ?_, ?_, fun a ha => Memory.read_writeBytes_other ha⟩
  · exact read_image_writeImage hm hin (i := 0) (by simp [leBytes])
  · exact read_image_writeImage hm hin (i := 1) (by simp [leBytes])
  · exact read_image_writeImage hm hin (i := 2) (by simp [leBytes])
  · exact read_image_writeImage hm hin (i := 3) (by simp [leBytes])

/-! ### Reads of the image port -/

theorem perform_rd_imgData (s : State) : perform (rd 0x0E4#12) s = .next (readImgData s) :=
  perform_rd_reg (r := .imgData) rfl

theorem perform_rd_imgByte (s : State) : perform (rd 0x0E8#12) s = .next (readImgByte s) :=
  perform_rd_reg (r := .imgByte) rfl

theorem perform_rd_fbByte (s : State) : perform (rd 0x0F4#12) s = .next (readFbByte s) :=
  perform_rd_reg (r := .fbByte) rfl

theorem toNat_append_add {m n : Nat} (x : BitVec m) (y : BitVec n) :
    (x ++ y).toNat = y.toNat + x.toNat * 2 ^ n := by
  rw [BitVec.toNat_append, ← Nat.shiftLeft_add_eq_or_of_lt y.isLt, Nat.shiftLeft_eq, Nat.add_comm]

/-- A little-endian word is the sum of its bytes at their places (20_memory.md R65). -/
theorem leWord_eq (b0 b1 b2 b3 : Byte) :
    leWord b0 b1 b2 b3 = BitVec.ofNat 32 (b0.toNat + b1.toNat * 2 ^ 8 + b2.toNat * 2 ^ 16 + b3.toNat * 2 ^ 24) := by
  have h0 := b0.isLt
  have h1 := b1.isLt
  have h2 := b2.isLt
  have h3 := b3.isLt
  apply BitVec.eq_of_toNat_eq
  rw [leWord, toNat_append_add, toNat_append_add, toNat_append_add, BitVec.toNat_ofNat, Nat.mod_eq_of_lt (by omega)]
  omega

theorem readImgData_inRange {s : State} (h : s.imgPtr.toNat + 4 ≤ s.params.maxImage) :
    readImgData s = { s with
      imgPtr := BitVec.ofNat 32 (s.imgPtr.toNat + 4)
      replies := s.replies ++ [leWord (s.image.read s.imgPtr.toNat) (s.image.read (s.imgPtr.toNat + 1))
        (s.image.read (s.imgPtr.toNat + 2)) (s.image.read (s.imgPtr.toNat + 3))] } := by
  rw [readImgData, if_neg (by simpa [imgPortOut] using h), BitVec.ofNat_add, BitVec.ofNat_toNat,
    BitVec.setWidth_eq]
  rfl

theorem readImgByte_inRange {s : State} (h : s.imgPtr.toNat + 1 ≤ s.params.maxImage) :
    readImgByte s = { s with
      imgPtr := BitVec.ofNat 32 (s.imgPtr.toNat + 1)
      replies := s.replies ++ [BitVec.ofNat 32 (s.image.read s.imgPtr.toNat).toNat] } := by
  rw [readImgByte, if_neg (by simpa [imgPortOut] using h), BitVec.ofNat_add, BitVec.ofNat_toNat,
    BitVec.setWidth_eq, BitVec.ofNat_toNat]
  rfl

theorem readImgData_outOfRange {s : State} (h : s.params.maxImage < s.imgPtr.toNat + 4) :
    readImgData s = reply 0 (raiseCmdErr .argRange s) := if_pos (by simpa [imgPortOut] using h)

theorem readImgByte_outOfRange {s : State} (h : s.params.maxImage < s.imgPtr.toNat + 1) :
    readImgByte s = reply 0 (raiseCmdErr .argRange s) := if_pos (by simpa [imgPortOut] using h)

/-- `IMG_BYTE` reads in a row return the image's bytes from `IMG_PTR` on. -/
theorem runProgram_rd_imgByte : ∀ (n : Nat) {s : State}, s.imgPtr.toNat + n ≤ s.params.maxImage →
    runProgram (List.replicate n (rd 0x0E8#12)) s = .next { s with
      imgPtr := BitVec.ofNat 32 (s.imgPtr.toNat + n)
      replies := s.replies ++
        (List.range n).map fun i => BitVec.ofNat 32 (s.image.read (s.imgPtr.toNat + i)).toNat }
  | 0, s, _ => by simp [runProgram]
  | n + 1, s, h => by
    have hptr := toNat_imgPtr_succ (s := s) (by omega)
    rw [List.replicate_succ, runProgram_cons (perform_rd_imgByte s), readImgByte_inRange (by omega),
      runProgram_rd_imgByte n (by simp only [hptr]; omega)]
    simp only [hptr, List.range_succ_eq_map, List.map_cons, List.map_map, List.append_assoc, List.singleton_append,
      Nat.add_zero, Function.comp_def, Nat.succ_eq_add_one, Nat.add_assoc, Nat.add_comm 1]

/-- Settles O14, by the sequences of `IMG_BYTE` accesses. -/
theorem imagePortReadsAndWritesTheImage : Obligations.ImagePortReadsAndWritesTheImage := by
  intro v s hm a byte
  refine ⟨fun hin => ⟨fun hf => ?_, ?_, ?_⟩, fun hin => ⟨?_, fun hf => ⟨?_, ?_⟩⟩⟩
  · rw [perform_wr_imgData, leBytes_eq]
    exact (runProgram_wr_imgByte v [v >>> 8, v >>> 16, v >>> 24] (not_locked_iff.2 hf) hin).symm
  · rw [perform_rd_imgData, readImgData_inRange hin, leWord_eq]
    rfl
  · exact runProgram_rd_imgByte 4 hin
  · rw [perform_rd_imgByte, readImgByte_inRange hin]
    rfl
  · rw [perform_wr_imgByte, perform_wr_imgByte]
    congr 3
    ext i hi
    interval_cases i <;> simp
  · refine ⟨_, (perform_wr_imgByte v s).trans (congrArg _ (writeImage_accepted (not_locked_iff.2 hf) hin)), ?_,
      fun b hb => Memory.read_write_other hb⟩
    exact read_image_writeImage hm hin (bytes := [v.extractLsb' 0 8]) (i := 0) (by simp)

/-! ### Refused accesses -/

/-- Settles O15. -/
theorem portsRefuseOutOfRange : Obligations.PortsRefuseOutOfRange := by
  intro v s refused
  refine ⟨fun hf => ?_, fun hout => ⟨?_, fun hf => ?_⟩, fun hout => ⟨?_, fun hf => ?_⟩, ?_⟩
  · have hl : locked s = true := by
      rw [locked_eq]; simpa using hf
    rw [perform_wr_imgData, perform_wr_imgByte, writeImage_locked hl, writeImage_locked hl]
    exact ⟨rfl, rfl⟩
  · rw [perform_rd_imgData, readImgData_outOfRange hout]; rfl
  · rw [perform_wr_imgData, writeImage_outOfRange (bytes := leBytes v) (not_locked_iff.2 hf) hout]; rfl
  · rw [perform_rd_imgByte, readImgByte_outOfRange hout]; rfl
  · rw [perform_wr_imgByte, writeImage_outOfRange (bytes := [v.extractLsb' 0 8]) (not_locked_iff.2 hf) hout]; rfl
  · rw [perform_rd_fbByte, readFbByte]
    split
    · rw [if_neg (by omega)]; rfl
    · rw [if_pos (by omega)]; rfl

end Sys2Proof.Machine
end

section
/-! SUPPORT. What one command, one register read and one register write can do, each with what caused it, and one event
as one of the three. -/

namespace Sys2Proof.Machine

/-! ### Commands -/

/-- What a command can do (30_encoding.md R82 to R84); an effect that one command alone has names it. -/
inductive CommandEffect (s : State) : Instr → State → Prop
  | nop : CommandEffect s .nop s
  | refused (i : Instr) (e : CmdErr) : CommandEffect s i (raiseCmdErr e s)
  | fatal (i : Instr) (e : FatalErr) (w : Word) : CommandEffect s i (raiseFatal e w s)
  | sreset : CommandEffect s .sreset (sessionReset s)
  | ready : CommandEffect s .cfgchk { s with fsm := .ready }
  | run (c : Ctl) : CommandEffect s .run { s with ctl := c, fsm := .intro }
  | pullIntro : CommandEffect s .pull (pullIntro s)
  | pullPacket : CommandEffect s .pull (pullPacket s)
  | pullPause : CommandEffect s .pull (pullPause s)
  | pullOutro : CommandEffect s .pull (pullOutro s)
  | scrld : CommandEffect s .scrld { s with session := { s.session with scrState := s.pace.scrSeed } }
  | scrb (b : Byte) (x w : Word) :
      CommandEffect s (.scrb b)
        { s with session := { s.session with scrState := x, started := true }, result := w }
  | result (i : Instr) (w : Word) : CommandEffect s i { s with result := w }
  | frame (a n : Nat) (hn : n ≤ s.cons.packetSize.toNat) : CommandEffect s .frame (frameOf a n s)
  | openBlock (i : Instr) (kind : OutKind) (src : OutSrc) (nsym : Nat) (y : Symbol) :
      CommandEffect s i (openBlock kind src nsym y s)

/-- A command guarded by its state check: the refusal is one of its effects, and so is what it does when accepted. -/
theorem CommandEffect.of_whenAccepted {i : Instr} {ok : Bool} {s t : State} {body : State → Result}
    (h : whenAccepted ok s body = .next t) (hbody : body s = .next t → CommandEffect s i t) : CommandEffect s i t := by
  obtain ⟨-, hb⟩ | ⟨-, rfl⟩ := whenAccepted_next h
  · exact hbody hb
  · exact .refused i _

theorem exec_commandEffect {i : Instr} {s t : State} (h : exec i s = .next t) : CommandEffect s i t := by
  cases i with
  | nop => cases h; exact .nop
  | sreset => cases h; exact .sreset
  | cfgchk =>
    rw [exec, execCfgchk] at h
    refine .of_whenAccepted h fun hb => ?_
    split at hb <;> cases hb
    · exact .fatal _ _ _
    · exact .ready
  | run =>
    rw [exec, execRun] at h
    refine .of_whenAccepted h fun hb => ?_
    cases hb; exact .run _
  | pull =>
    rw [exec, execPull] at h
    refine .of_whenAccepted h fun hb => ?_
    split at hb
    · cases hb; exact .pullIntro
    · split at hb <;> cases hb
      exact .pullPacket
    · split at hb <;> cases hb
      exact .pullPause
    · cases hb; exact .pullOutro
    all_goals cases hb; exact .refused _ _
  | scrld =>
    rw [exec, execScrld] at h
    refine .of_whenAccepted h fun hb => ?_
    cases hb; exact .scrld
  | scrb b =>
    rw [exec, execScrb] at h
    refine .of_whenAccepted h fun hb => ?_
    cases hb; exact .scrb b _ _
  | crc =>
    rw [exec, execCrc] at h
    refine .of_whenAccepted h fun hb => ?_
    split at hb <;> cases hb
    · exact .refused _ _
    · exact .result _ _
  | frame =>
    rw [exec, execFrame] at h
    refine .of_whenAccepted h fun hb => ?_
    split at hb
    · cases hb; exact .refused _ _
    · split at hb
      · cases hb; exact .fatal _ _ _
      · split at hb <;> cases hb
        exact .frame _ _ (by omega)
  | mapb b =>
    rw [exec, execMapb] at h
    refine .of_whenAccepted h fun hb => ?_
    cases hb; exact .result _ _
  | mods y =>
    rw [exec, execMods] at h
    refine .of_whenAccepted h fun hb => ?_
    cases hb; exact .openBlock _ _ _ _ _
  | modf =>
    rw [exec, execModf] at h
    refine .of_whenAccepted h fun hb => ?_
    cases hb; exact .openBlock _ _ _ _ _
  | blank us =>
    rw [exec, execBlank] at h
    refine .of_whenAccepted h fun hb => ?_
    cases hb; exact .openBlock _ _ _ _ _

/-- What no command changes: the registers the host owns, the image, the sizes and the host's lists (10_state.md R25,
20_memory.md R62). -/
structure HostPartKept (s t : State) : Prop where
  cons : t.cons = s.cons
  pace : t.pace = s.pace
  arg0 : t.arg0 = s.arg0
  arg1 : t.arg1 = s.arg1
  imgPtr : t.imgPtr = s.imgPtr
  fbPtr : t.fbPtr = s.fbPtr
  irqEn : t.irq.en = s.irq.en
  params : t.params = s.params
  pending : t.pending = s.pending
  replies : t.replies = s.replies
  image : t.image = s.image

theorem CommandEffect.hostPartKept {i : Instr} {s t : State} (h : CommandEffect s i t) : HostPartKept s t := by
  cases h <;> constructor <;> rfl

/-- Settles O33. -/
theorem commandsKeepTheHostsRegisters : Obligations.CommandsKeepTheHostsRegisters := by
  intro i s t h
  obtain ⟨hcons, hpace, harg0, harg1, himgPtr, hfbPtr, hen, hparams, hpending, hreplies, -⟩ :=
    (exec_commandEffect h).hostPartKept
  exact ⟨hcons, hpace, harg0, harg1, himgPtr, hfbPtr, hen, hparams, hpending, hreplies⟩

/-- A command but FRAME and PULL keeps the frame buffer. -/
theorem CommandEffect.fb_eq {i : Instr} {s t : State} (h : CommandEffect s i t) (hframe : i ≠ .frame)
    (hpull : i ≠ .pull) : t.fb = s.fb := by
  cases h with
  | frame => exact absurd rfl hframe
  | pullIntro | pullPacket | pullPause | pullOutro => exact absurd rfl hpull
  | _ => rfl

/-- A frame of at most `PACKET_SIZE` bytes of image ends at `PACKET_SIZE + 20` (42_framer.md R122, R125). -/
theorem read_frameOf_beyond {s : State} {a n b : Nat} (hn : n ≤ s.cons.packetSize.toNat)
    (hb : s.cons.packetSize.toNat + 20 ≤ b) : (frameOf a n s).fb.read b = s.fb.read b := by
  rw [frameOf_fb]
  exact Memory.read_writeBytes_other (.inr (by rw [frameBytes_length, sentPayload_length hn]; omega))

/-- PULL in `PACKET` touches the frame buffer and the session as its frame does. -/
theorem pullPacket_fb (s : State) :
    (pullPacket s).fb = (frameOf s.ctl.offset.toNat s.cons.packetSize.toNat s).fb := by
  simp only [pullPacket, openBlock_fb]

theorem pullPacket_session (s : State) :
    (pullPacket s).session = (frameOf s.ctl.offset.toNat s.cons.packetSize.toNat s).session := by
  simp only [pullPacket, openBlock_session]

theorem CommandEffect.fb_read_beyond {i : Instr} {s t : State} (h : CommandEffect s i t) {b : Nat}
    (hb : s.cons.packetSize.toNat + 20 ≤ b) : t.fb.read b = s.fb.read b := by
  cases h with
  | frame a n hn => exact read_frameOf_beyond hn hb
  | pullPacket => rw [pullPacket_fb, read_frameOf_beyond le_rfl hb]
  | _ => rfl

/-- Settles O32: of the effects of a command only the frame stores, and it ends at `PACKET_SIZE + 20`. -/
theorem commandsStoreOnlyInTheFrame : Obligations.CommandsStoreOnlyInTheFrame := by
  intro i s t h
  have he := exec_commandEffect h
  exact ⟨he.hostPartKept.image, he.fb_eq, fun _ => he.fb_read_beyond⟩

/-- The scrambler moves `s` alone, and starts the session; `N` stays (41_scrambler.md R100). -/
theorem sampleIndex_frameOf (a n : Nat) (s : State) :
    (frameOf a n s).session.sampleIndex = s.session.sampleIndex := by
  rw [frameOf_session, frameSession_session]
  split <;> rfl

/-- Only SRESET moves `N`, to 0 (46_pacing.md R191). -/
theorem CommandEffect.sampleIndex_cases {i : Instr} {s t : State} (h : CommandEffect s i t) :
    t.session.sampleIndex = s.session.sampleIndex ∨ i = .sreset ∧ t.session.sampleIndex = 0 := by
  cases h with
  | sreset => exact .inr ⟨rfl, rfl⟩
  | pullPacket => rw [pullPacket_session, sampleIndex_frameOf]; exact .inl rfl
  | frame a n => exact .inl (sampleIndex_frameOf a n s)
  | _ => exact .inl rfl

/-- Every command but SRESET, SCRLD, SCRB, FRAME and PULL keeps the scrambler state. -/
theorem CommandEffect.scrState_cases {i : Instr} {s t : State} (h : CommandEffect s i t) :
    t.session.scrState = s.session.scrState ∨
      i = .sreset ∨ i = .scrld ∨ (∃ b, i = .scrb b) ∨ i = .frame ∨ i = .pull := by
  cases h with
  | sreset | scrld | frame | pullIntro | pullPacket | pullPause | pullOutro => simp
  | scrb b => exact .inr (.inr (.inr (.inl ⟨b, rfl⟩)))
  | _ => exact .inl rfl

/-- Pending bits set under a condition are pending bits set. -/
theorem exists_or_of_ite (c : Bool) (p b : BitVec 4) : ∃ b', (if c then p ||| b else p) = p ||| b' := by
  cases c
  · exact ⟨0, BitVec.or_zero.symm⟩
  · exact ⟨b, rfl⟩

theorem openBlock_pend (kind : OutKind) (src : OutSrc) (n : Nat) (y : Symbol) (s : State) :
    ∃ b, (openBlock kind src n y s).irq.pend = s.irq.pend ||| b := exists_or_of_ite _ _ _

theorem openSilence_pend (kind : OutKind) (us : Nat) (s : State) :
    ∃ b, (openSilence kind us s).irq.pend = s.irq.pend ||| b := openBlock_pend _ _ _ _ _

theorem pullPacket_pend (s : State) :
    (pullPacket s).irq.pend =
      (openBlock .packet .framebuf (4 * (s.cons.packetSize.toNat + 20)) 0
        (frameOf s.ctl.offset.toNat s.cons.packetSize.toNat s)).irq.pend := by
  simp only [pullPacket]

theorem pullOutro_pend (s : State) :
    (pullOutro s).irq.pend = (openSilence .outro s.pace.outroUs.toNat s).irq.pend ||| irqDone := rfl

/-- Commands set pending bits and clear none (10_state.md R33). -/
theorem CommandEffect.pend_eq {i : Instr} {s t : State} (h : CommandEffect s i t) :
    ∃ b, t.irq.pend = s.irq.pend ||| b := by
  cases h with
  | refused _ e => exact ⟨irqCmdErr, rfl⟩
  | fatal _ e w => exact ⟨irqFatal, rfl⟩
  | openBlock => exact openBlock_pend _ _ _ _ _
  | pullIntro | pullPause => exact openSilence_pend _ _ _
  | pullPacket =>
    rw [pullPacket_pend]
    exact openBlock_pend _ _ _ _ _
  | pullOutro =>
    obtain ⟨b, hb⟩ := openSilence_pend .outro s.pace.outroUs.toNat s
    exact ⟨b ||| irqDone, by rw [pullOutro_pend, hb, BitVec.or_assoc]⟩
  | _ => exact ⟨0, BitVec.or_zero.symm⟩

/-! ### Register reads -/

/-- What a read of a register can do; the pop and its index overflow are `OUT_DATA`'s (10_state.md R25, R53 to R55,
44_modulator.md R157). -/
inductive ReadEffect (s : State) : Reg → State → Prop
  | value (r : Reg) (w : Word) : ReadEffect s r (reply w s)
  | refused (r : Reg) (e : CmdErr) : ReadEffect s r (reply 0 (raiseCmdErr e s))
  | overflow : ReadEffect s .outData (reply 0 (raiseFatal .indexOverflow 0 s))
  | imgPtr (r : Reg) (w p : Word) : ReadEffect s r (reply w { s with imgPtr := p })
  | fbPtr (r : Reg) (w p : Word) : ReadEffect s r (reply w { s with fbPtr := p })
  | pop (w : Word) (hn : s.session.sampleIndex ≠ 0xFFFFFFFFFFFFFFFF#64) :
      ReadEffect s .outData (reply w (advanceSample s))

theorem hostReadReg_readEffect {r : Reg} {s t : State} (h : hostReadReg r s = .next t) : ReadEffect s r t := by
  unfold hostReadReg at h
  split at h
  · unfold readOutData at h
    split at h
    · cases h; exact .refused _ _
    · split at h
      · cases h; exact .overflow
      · split at h <;> cases h
        exact .pop _ ‹_›
  · unfold readOutPeek at h
    split at h
    · cases h; exact .value _ _
    · split at h <;> cases h
      exact .value _ _
  · cases h
    unfold readImgData
    split
    · exact .refused _ _
    · exact .imgPtr _ _ _
  · cases h
    unfold readImgByte
    split
    · exact .refused _ _
    · exact .imgPtr _ _ _
  · cases h
    unfold readFbByte
    split
    · exact .refused _ _
    · exact .fbPtr _ _ _
  · cases h; exact .value _ _

theorem ReadEffect.scrState_eq {r : Reg} {s t : State} (h : ReadEffect s r t) :
    t.session.scrState = s.session.scrState := by
  cases h <;> rfl

theorem ReadEffect.sameInputs {r : Reg} {s t : State} (h : ReadEffect s r t) : SameInputs s t := by
  cases h <;> constructor <;> rfl

theorem ReadEffect.pend_eq {r : Reg} {s t : State} (h : ReadEffect s r t) : ∃ b, t.irq.pend = s.irq.pend ||| b := by
  cases h with
  | refused _ e => exact ⟨irqCmdErr, rfl⟩
  | overflow => exact ⟨irqFatal, rfl⟩
  | pop => exact exists_or_of_ite _ _ _
  | _ => exact ⟨0, BitVec.or_zero.symm⟩

/-- `N` moves by one with a sample, without wrapping, and with nothing else that is read (44_modulator.md R157). -/
theorem ReadEffect.sampleIndex_cases {r : Reg} {s t : State} (h : ReadEffect s r t) :
    t.session.sampleIndex = s.session.sampleIndex ∨
      r = .outData ∧ t.session.sampleIndex.toNat = s.session.sampleIndex.toNat + 1 := by
  cases h with
  | pop w hn =>
    refine .inr ⟨rfl, ?_⟩
    have hne : s.session.sampleIndex.toNat ≠ 0xFFFFFFFFFFFFFFFF := fun heq => hn (BitVec.eq_of_toNat_eq heq)
    have hlt := s.session.sampleIndex.isLt
    rw [reply_session, advanceSample_session, BitVec.toNat_add, BitVec.toNat_ofNat]
    omega
  | _ => exact .inl rfl

/-! ### Register writes -/

/-- What a write of `v` to a register other than `CMD` can do; clearing pending bits is `IRQ_PEND`'s, and the writes
the lock of 10_state.md R27 guards happen only while it is open. -/
inductive WriteEffect (s : State) : Reg → Word → State → Prop
  | stay (r : Reg) (v : Word) : WriteEffect s r v s
  | refused (r : Reg) (v : Word) (e : CmdErr) : WriteEffect s r v (raiseCmdErr e s)
  | free (r : Reg) (v : Word) (f : Fsm) (en : BitVec 4) (a0 a1 ip fp : Word) :
      WriteEffect s r v
        { s with fsm := f, irq := { s.irq with en := en }, arg0 := a0, arg1 := a1, imgPtr := ip, fbPtr := fp }
  | errClr (r : Reg) (v : Word) : WriteEffect s r v { s with err := { s.err with cmdErr := false, cmdErrCode := 0 } }
  | irqPend (v : Word) :
      WriteEffect s .irqPend v { s with irq := { s.irq with pend := s.irq.pend &&& ~~~(v.setWidth 4) } }
  | cons (r : Reg) (v : Word) (c : Cons) (hl : locked s = false) : WriteEffect s r v (invalidate { s with cons := c })
  | pace (r : Reg) (v : Word) (p : Pace) (hl : locked s = false) : WriteEffect s r v (invalidate { s with pace := p })
  | image (r : Reg) (v : Word) (m : Memory) (ip : Word) (hl : locked s = false) :
      WriteEffect s r v (invalidate { s with image := m, imgPtr := ip })

theorem writeImage_writeEffect (r : Reg) (v : Word) (bytes : List Byte) (s : State) :
    WriteEffect s r v (writeImage bytes s) := by
  unfold writeImage
  split
  · exact .refused _ _ _
  · split
    · exact .refused _ _ _
    · exact .image _ _ _ _ (Bool.eq_false_iff.2 ‹_›)

/-- The one W1C register is `IRQ_PEND` (10_state.md R24). -/
theorem eq_irqPend_of_accessClass {r : Reg} (h : r.accessClass = .w1c) : r = .irqPend := by
  cases r with
  | irqPend => rfl
  | _ => cases h

theorem hostWriteReg_writeEffect (r : Reg) (v : Word) (s : State) : WriteEffect s r v (hostWriteReg r v s) := by
  unfold hostWriteReg
  split
  · exact .refused _ _ _
  · exact .refused _ _ _
  · obtain ⟨f, en, a0, a1, ip, fp, -, heq⟩ := freeWrite_eq r v s
    rw [heq]
    exact .free _ _ _ _ _ _ _ _
  · split
    · exact .refused _ _ _
    · rename_i hopen
      rw [Bool.or_eq_true, not_or, Bool.not_eq_true] at hopen
      exact .cons _ _ _ hopen.1
  · split
    · exact .refused _ _ _
    · exact .pace _ _ _ (Bool.eq_false_iff.2 ‹_›)
  · split
    · exact .errClr _ _
    · exact .stay _ _
  · cases eq_irqPend_of_accessClass ‹_›
    exact .irqPend v
  · split
    · exact writeImage_writeEffect _ _ _ _
    · exact writeImage_writeEffect _ _ _ _
  · exact .stay _ _

theorem WriteEffect.session_eq {r : Reg} {v : Word} {s t : State} (h : WriteEffect s r v t) :
    t.session = s.session := by
  cases h <;> rfl

/-- While the lock holds no write reaches the inputs of a run (10_state.md R27). -/
theorem WriteEffect.sameInputs {r : Reg} {v : Word} {s t : State} (h : WriteEffect s r v t) (hl : locked s = true) :
    SameInputs s t := by
  cases h with
  | cons _ _ _ h | pace _ _ _ h | image _ _ _ _ h => simp [hl] at h
  | _ => constructor <;> rfl

/-- A write clears pending bits only by a 1 in `IRQ_PEND` (10_state.md R33). -/
theorem WriteEffect.pend_cases {r : Reg} {v : Word} {s t : State} (h : WriteEffect s r v t) :
    (∃ b, t.irq.pend = s.irq.pend ||| b) ∨ r = .irqPend ∧ t.irq.pend = s.irq.pend &&& ~~~(v.setWidth 4) := by
  cases h with
  | irqPend => exact .inr ⟨rfl, rfl⟩
  | refused _ _ e => exact .inl ⟨irqCmdErr, rfl⟩
  | _ => exact .inl ⟨0, BitVec.or_zero.symm⟩

/-! ### One event -/

/-- One event and its outcome, by what the window makes of it (10_state.md R24 to R26, 20_memory.md R66, 30_encoding.md
R84). -/
inductive Performed (s : State) : HostEvent → State → Prop
  | badRead (width : Width) (offset : BitVec 12) : Performed s (.read width offset) (reply 0 (raiseCmdErr .bus s))
  | badWrite (width : Width) (offset : BitVec 12) (v : Word) : Performed s (.write width offset v) (raiseCmdErr .bus s)
  | reservedRead (offset : BitVec 12) : Performed s (rd offset) (reply 0 s)
  | reservedWrite (offset : BitVec 12) (v : Word) : Performed s (wr offset v) s
  | read {offset : BitVec 12} {r : Reg} {t : State} (hr : regAt s.params offset.toNat = some r)
      (h : ReadEffect s r t) : Performed s (rd offset) t
  | write {offset : BitVec 12} {r : Reg} {v : Word} {t : State} (hr : regAt s.params offset.toNat = some r)
      (h : WriteEffect s r v t) : Performed s (wr offset v) t
  | illegal (w : Word) : Performed s (wr cmdOffset w) (raiseCmdErr .illegalCmd s)
  | command {w : Word} {i : Instr} {t : State} (hw : decode w = .ok i) (h : CommandEffect s i t) :
      Performed s (wr cmdOffset w) t
  | hardReset (image fb : List Host.Cell) : Performed s (.hardReset image fb) (hardReset image fb s)

/-- A well-formed read is `rd`, a well-formed write is `wr`. -/
theorem width_of_wellFormed_read {width : Width} {offset : BitVec 12}
    (h : (HostEvent.read width offset).wellFormed = true) : width = .w32 := by
  simp only [HostEvent.wellFormed, Bool.and_eq_true, decide_eq_true_eq] at h
  exact h.1

theorem width_of_wellFormed_write {width : Width} {offset : BitVec 12} {v : Word}
    (h : (HostEvent.write width offset v).wellFormed = true) : width = .w32 := by
  simp only [HostEvent.wellFormed, Bool.and_eq_true, decide_eq_true_eq] at h
  exact h.1

theorem hostRead_performed {offset : BitVec 12} {s t : State} (h : hostRead offset s = .next t) :
    Performed s (rd offset) t := by
  unfold hostRead at h
  split at h
  · exact .read ‹_› (hostReadReg_readEffect h)
  · cases h; exact .reservedRead _

theorem hostWrite_performed {offset : BitVec 12} {v : Word} {s t : State} (h : hostWrite offset v s = .next t) :
    Performed s (wr offset v) t := by
  unfold hostWrite at h
  split at h
  · rw [offset_of_regAt_cmd (offset := offset) ‹_›]
    unfold writeCommand at h
    split at h
    · exact .command ‹_› (exec_commandEffect h)
    · cases h; exact .illegal _
  · cases h; exact .write ‹_› (hostWriteReg_writeEffect _ _ _)
  · cases h; exact .reservedWrite _ _

theorem perform_performed {e : HostEvent} {s t : State} (h : perform e s = .next t) : Performed s e t := by
  cases e with
  | read width offset =>
    rw [perform] at h
    split at h
    · rw [width_of_wellFormed_read (width := width) ‹_›]
      exact hostRead_performed h
    · cases h; exact .badRead _ _
  | write width offset v =>
    rw [perform] at h
    split at h
    · rw [width_of_wellFormed_write (width := width) ‹_›]
      exact hostWrite_performed h
    · cases h; exact .badWrite _ _ _
  | hardReset image fb => cases h; exact .hardReset image fb

/-! ### The word of SRESET -/

/-- A command word is its two fields (30_encoding.md R80). -/
theorem commandWord_fields (w : Word) : commandWord (opcOf w) (immOf w) = w := by
  apply BitVec.eq_of_getLsbD_eq
  intro i hi
  simp only [commandWord, opcOf, immOf, BitVec.getLsbD_append, BitVec.getLsbD_extractLsb']
  split
  · rename_i hlt; simp [hlt]
  · rename_i hge
    have : i - 24 < 8 := by omega
    have hi24 : 24 + (i - 24) = i := by omega
    simp [this, hi24]

/-- What the decoder accepts: a row of the map with the word's opcode, its reserved bits 0 (30_encoding.md R84). -/
theorem decode_ok {w : Word} {i : Instr} (h : decode w = .ok i) :
    ∃ row ∈ opcodeMap, row.opc = opcOf w ∧ immOf w &&& row.format.reservedMask = 0#24 ∧ row.build (immOf w) = i := by
  unfold decode at h
  split at h
  · cases h
  · rename_i row hfind
    split at h
    · cases h
      have hopc : row.opc = opcOf w := eq_of_beq (List.find?_some (p := fun row : OpRow => row.opc == opcOf w) hfind)
      exact ⟨row, List.mem_of_find?_eq_some hfind, hopc, ‹_›, rfl⟩
    · cases h

theorem eq_encode_of_decode_sreset {w : Word} (h : decode w = .ok .sreset) : w = encode .sreset := by
  obtain ⟨row, hrow, hopc, hmask, hbuild⟩ := decode_ok h
  have hmap : ∀ row ∈ opcodeMap, row.build (immOf w) = .sreset →
      row.opc = 0x01#8 ∧ row.format.reservedMask = 0xFFFFFF#24 := by
    simp [opcodeMap, Format.reservedMask]
  obtain ⟨hone, hall⟩ := hmap row hrow hbuild
  have himm : immOf w = 0#24 := by
    rw [hall] at hmask
    exact BitVec.and_allOnes.symm.trans hmask
  rw [← commandWord_fields w, ← hopc, hone, himm]
  rfl

/-! ### The safety statements -/

/-- Bits set on top of those pending clear none. -/
theorem not_pend_of_or {p b q : BitVec 4} {i : Nat} (hq : q = p ||| b) (hp : p.getLsbD i = true)
    (hclear : q.getLsbD i = false) : False := by
  simp [hq, hp] at hclear

/-- Settles O37: every event but the two sets pending bits on top of those there. -/
theorem pendingBitsStayUntilTheHostClearsThem : Obligations.PendingBitsStayUntilTheHostClearsThem := by
  intro s t e i h hi hset hclear
  cases perform_performed h with
  | badRead | badWrite | illegal => exact (not_pend_of_or (b := irqCmdErr) rfl hset hclear).elim
  | reservedRead | reservedWrite => exact (not_pend_of_or BitVec.or_zero.symm hset hclear).elim
  | read hr he =>
    obtain ⟨b, hb⟩ := he.pend_eq
    exact (not_pend_of_or hb hset hclear).elim
  | command hw he =>
    obtain ⟨b, hb⟩ := he.pend_eq
    exact (not_pend_of_or hb hset hclear).elim
  | @write offset r v _ hr he =>
    obtain ⟨b, hb⟩ | ⟨rfl, hb⟩ := he.pend_cases
    · exact (not_pend_of_or hb hset hclear).elim
    · refine .inl ⟨v, by rw [offset_of_regAt_irqPend hr]; rfl, ?_⟩
      rw [hb] at hclear
      simpa [hset, hi] using hclear
  | hardReset image fb => exact .inr ⟨image, fb, rfl⟩

/-- Settles O39. -/
theorem scramblerStateChangesOnlyByItsCommands : Obligations.ScramblerStateChangesOnlyByItsCommands := by
  intro s t e h hne
  cases perform_performed h with
  | badRead | badWrite | illegal | reservedRead | reservedWrite => exact absurd rfl hne
  | read hr he => exact absurd he.scrState_eq hne
  | write hr he => exact absurd (congrArg _ he.session_eq) hne
  | command hw he =>
    obtain heq | hi := he.scrState_cases
    · exact absurd heq hne
    · exact .inr ⟨_, _, rfl, hw, hi⟩
  | hardReset image fb => exact .inl ⟨image, fb, rfl⟩

/-- Settles O41: a running state holds the lock, and no command writes the inputs. -/
theorem aRunsInputsAreLocked : Obligations.ARunsInputsAreLocked := by
  intro s t e h hrun hsession
  have hlocked : locked s = true := by rw [locked, hrun, Bool.true_or]
  cases perform_performed h with
  | badRead | badWrite | illegal | reservedRead | reservedWrite => constructor <;> rfl
  | read hr he => exact he.sameInputs
  | write hr he => exact he.sameInputs hlocked
  | command hw he =>
    have hk := he.hostPartKept
    exact ⟨hk.params.symm, hk.cons.symm, hk.pace.symm, hk.image.symm⟩
  | hardReset image fb => cases hsession

/-- Settles O38. -/
theorem sampleIndexIsNeverRewound : Obligations.SampleIndexIsNeverRewound := by
  intro s t e h
  cases perform_performed h with
  | badRead | badWrite | illegal | reservedRead | reservedWrite => exact .inl rfl
  | read hr he =>
    obtain heq | ⟨rfl, hnext⟩ := he.sampleIndex_cases
    · exact .inl heq
    · exact .inr (.inl ⟨by rw [offset_of_regAt_outData hr]; rfl, hnext⟩)
  | write hr he => exact .inl (congrArg _ he.session_eq)
  | command hw he =>
    obtain heq | ⟨rfl, hzero⟩ := he.sampleIndex_cases
    · exact .inl heq
    · exact .inr (.inr ⟨by rw [eq_encode_of_decode_sreset hw]; rfl, hzero⟩)
  | hardReset image fb => exact .inr (.inr ⟨rfl, rfl⟩)

end Sys2Proof.Machine
end

section
/-! SUPPORT. Two invariants of every step, by one case for each effect (Effect, step_keeps). -/

namespace Sys2Proof.Machine

/-! ### Controller states -/

theorem Fsm.ne_error_of_acceptsUnit {f : Fsm} (h : f.acceptsUnit = true) : f ≠ .error := by rintro rfl; cases h

theorem Fsm.ne_error_of_acceptsDirect {f : Fsm} (h : f.acceptsDirect = true) : f ≠ .error := by rintro rfl; cases h

theorem Fsm.ne_idle_of_acceptsDirect {f : Fsm} (h : f.acceptsDirect = true) : f ≠ .idle := by rintro rfl; cases h

theorem ite_ne_error {c : Prop} [Decidable c] {f g : Fsm} (hf : f ≠ .error) (hg : g ≠ .error) :
    (if c then f else g) ≠ .error := by
  split
  · exact hf
  · exact hg

/-! ### The configuration -/

/-- CFGCHK's verdict depends on the sizes and the configuration alone (46_pacing.md R192). -/
theorem cfgError_congr {s t : State} (hp : t.params = s.params) (hc : t.cons = s.cons) (hpace : t.pace = s.pace) :
    cfgError t = cfgError s := by
  unfold cfgError zeroCheck
  rw [hp, hc, hpace]

/-- The configuration stays valid where it is kept and the controller does not leave `IDLE` or `ERROR`. -/
theorem ConfigValidated.of_kept {s t : State} (h : ConfigValidated s) (hp : t.params = s.params) (hc : t.cons = s.cons)
    (hpace : t.pace = s.pace) (hidle : s.fsm = .idle → t.fsm = .idle ∨ t.fsm = .error)
    (herror : s.fsm = .error → t.fsm = .idle ∨ t.fsm = .error) : ConfigValidated t := by
  intro hti hte
  rw [cfgError_congr hp hc hpace]
  exact h (fun hf => (hidle hf).elim hti hte) (fun hf => (herror hf).elim hti hte)

theorem ConfigValidated.of_same_fsm {s t : State} (h : ConfigValidated s) (hp : t.params = s.params)
    (hc : t.cons = s.cons) (hpace : t.pace = s.pace) (hf : t.fsm = s.fsm) : ConfigValidated t :=
  h.of_kept hp hc hpace (fun hi => .inl (hf.trans hi)) (fun he => .inr (hf.trans he))

/-- A state reached from a running one, or from `READY` or `DONE`, with the configuration kept. -/
theorem ConfigValidated.of_validated {s t : State} (h : ConfigValidated s) (hp : t.params = s.params)
    (hc : t.cons = s.cons) (hpace : t.pace = s.pace) (hi : s.fsm ≠ .idle) (he : s.fsm ≠ .error) : ConfigValidated t :=
  h.of_kept hp hc hpace (fun hf => absurd hf hi) (fun hf => absurd hf he)

theorem configValidated_of_idle {s : State} (h : s.fsm = .idle) : ConfigValidated s := fun hi => absurd h hi

theorem configValidated_of_error {s : State} (h : s.fsm = .error) : ConfigValidated s := fun _ he => absurd h he

/-- A write the lock lets through leaves the controller `IDLE`. -/
theorem invalidate_fsm_of_not_locked {s : State} (h : locked s = false) : (invalidate s).fsm = .idle := by
  obtain hf | hf | hf := not_locked_iff.1 h <;> simp [hf, Fsm.acceptsDirect]

theorem ConfigValidated.effect {s t : State} (hs : ConfigValidated s) (h : Effect s t) : ConfigValidated t := by
  cases h with
  | cfgFatal | frameFatal | indexFatal => exact configValidated_of_error rfl
  | sreset | hardReset => exact configValidated_of_idle rfl
  | cons _ _ hl | pace _ _ hl | image _ hl => exact configValidated_of_idle (invalidate_fsm_of_not_locked hl)
  | free r v =>
    obtain ⟨f, en, a0, a1, ip, fp, hf | ⟨-, hf⟩, heq⟩ := freeWrite_eq r v s
    · exact hs.of_same_fsm (by rw [heq]) (by rw [heq]) (by rw [heq]) (by rw [heq, hf])
    · exact configValidated_of_idle (by rw [heq, hf])
  | ready _ hc => exact fun _ _ => (cfgError_congr rfl rfl rfl).trans hc
  | run hf => exact hs.of_validated rfl rfl rfl (Fsm.ne_idle_of_acceptsDirect hf) (Fsm.ne_error_of_acceptsDirect hf)
  | pullIntro hf | pullPacket hf | pullPause hf | pullOutro hf =>
    exact hs.of_validated rfl rfl rfl (by simp [hf]) (by simp [hf])
  | _ => exact hs.of_same_fsm rfl rfl rfl rfl

/-- Settles O55: no effect changes the configuration without returning to `IDLE`, or leaves `IDLE` and `ERROR` for
another state without a passed CFGCHK. -/
theorem stepKeepsTheConfigurationValidated : Obligations.StepKeepsTheConfigurationValidated := fun _ _ hs h =>
  step_keeps (P := ConfigValidated) (fun _ _ _ hs => hs) (fun _ _ hs he => hs.effect he) hs h

/-! ### The error records -/

theorem FatalErr.code_ne_zero (e : FatalErr) : e.code ≠ 0 := by cases e <;> decide

theorem CmdErr.code_ne_zero (e : CmdErr) : e.code ≠ 0 := by cases e <;> decide

/-- The records stay consistent where they are kept and `ERROR` is neither entered nor left. -/
theorem ErrorsRecorded.of_kept {s t : State} (h : ErrorsRecorded s) (herr : t.err = s.err)
    (hf : t.fsm = .error ↔ s.fsm = .error) : ErrorsRecorded t := by
  rw [ErrorsRecorded, herr, hf]
  exact h

theorem ErrorsRecorded.of_outside {s t : State} (h : ErrorsRecorded s) (herr : t.err = s.err) (hs : s.fsm ≠ .error)
    (ht : t.fsm ≠ .error) : ErrorsRecorded t := h.of_kept herr (iff_of_false ht hs)

theorem ErrorsRecorded.raiseFatal {s : State} (h : ErrorsRecorded s) (e : FatalErr) (w : Word) :
    ErrorsRecorded (Machine.raiseFatal e w s) :=
  ⟨iff_of_true rfl e.code_ne_zero, h.2⟩

theorem ErrorsRecorded.raiseCmdErr {s : State} (h : ErrorsRecorded s) (e : CmdErr) :
    ErrorsRecorded (Machine.raiseCmdErr e s) :=
  ⟨h.1, iff_of_true rfl e.code_ne_zero⟩

theorem invalidate_fsm_error (s : State) : (invalidate s).fsm = .error ↔ s.fsm = .error := by
  rw [invalidate_fsm]
  cases s.fsm <;> decide

theorem ErrorsRecorded.effect {s t : State} (hs : ErrorsRecorded s) (h : Effect s t) : ErrorsRecorded t := by
  cases h with
  | cmdErr e => exact hs.raiseCmdErr e
  | cfgFatal e w => exact hs.raiseFatal e w
  | frameFatal => exact hs.raiseFatal _ _
  | indexFatal => exact hs.raiseFatal _ _
  | errClr => exact ⟨hs.1, by simp⟩
  | sreset => exact ⟨by simp, hs.2⟩
  | hardReset => exact ⟨by simp, by simp⟩
  | free r v =>
    obtain ⟨f, en, a0, a1, ip, fp, hf | ⟨ha, hf⟩, heq⟩ := freeWrite_eq r v s
    · exact hs.of_kept (by rw [heq]) (by rw [heq, hf])
    · exact hs.of_outside (by rw [heq]) (Fsm.ne_error_of_acceptsDirect ha) (by simp [heq, hf])
  | cons | pace | image => exact hs.of_kept rfl (invalidate_fsm_error _)
  | ready hf => exact hs.of_outside rfl (Fsm.ne_error_of_acceptsUnit hf) (by simp)
  | run hf => exact hs.of_outside rfl (Fsm.ne_error_of_acceptsDirect hf) (by simp)
  | pullIntro hf | pullPacket hf | pullPause hf =>
    exact hs.of_outside rfl (by simp [hf]) (ite_ne_error (by decide) (by decide))
  | pullOutro hf => exact hs.of_outside rfl (by simp [hf]) (by simp [Machine.pullOutro])
  | _ => exact hs.of_kept rfl Iff.rfl

/-- Settles O56: the two errors set their code with their mark, and the clears and resets take both away. -/
theorem stepKeepsErrorsRecorded : Obligations.StepKeepsErrorsRecorded := fun _ _ hs h =>
  step_keeps (P := ErrorsRecorded) (fun _ _ _ hs => hs) (fun _ _ hs he => hs.effect he) hs h

end Sys2Proof.Machine
end

section
/-! SUPPORT. Three claims about one event: which one a step performs, a malformed access, and the memories' canonical
form. -/

namespace Sys2Proof.Machine

/-! ### Commands and malformed accesses -/

/-- A write of a legal word to `CMD` runs its command (30_encoding.md R84). -/
theorem perform_wr_cmd {w : Word} {i : Instr} (hw : decode w = .ok i) (s : State) :
    perform (wr cmdOffset w) s = exec i s := by
  rw [perform_wr (by decide), hostWrite, regAt_cmd]
  simp only [writeCommand, hw]

/-- A word of 32 bits is placed as it is. -/
theorem tableWord_32 (w : Nat) : tableWord 32 w = BitVec.ofNat 32 w := by
  apply BitVec.eq_of_toNat_eq
  rw [tableWord, BitVec.toNat_ofNat, BitVec.toNat_ofNat, Nat.mod_mod]

/-- Settles O5: a placed command word is the next event, so both clauses on commands are the step of one event. -/
theorem stepRunsTheNextHostEvent : Obligations.StepRunsTheNextHostEvent := by
  intro s
  refine ⟨step_nil, fun e rest h => step_cons h, fun w i rest h hw => ?_, fun w i hw _ => ?_⟩
  · exact (step_cons h).trans (perform_wr_cmd hw _)
  · rw [← tableWord_32] at hw
    exact (step_cons (issueCommand_pending _ s)).trans (perform_wr_cmd hw s)

/-- An access is well-formed by its width and its offset, whatever a write's value (20_memory.md R66). -/
theorem not_wellFormed_of_malformed {width : Width} {offset : BitVec 12}
    (h : width ≠ .w32 ∨ offset.toNat % 4 ≠ 0) :
    (HostEvent.read width offset).wellFormed = false ∧
      ∀ v, (HostEvent.write width offset v).wellFormed = false := by
  have hbad : (decide (width = .w32) && decide (offset.toNat % 4 = 0)) = false := by
    simpa [imp_iff_not_or] using h
  exact ⟨hbad, fun _ => hbad⟩

/-- Settles O6: what `raiseCmdErr` of `BUS` leaves, and the reply 0. -/
theorem malformedAccessesRaiseBus : Obligations.MalformedAccessesRaiseBus := by
  intro width offset v s h
  obtain ⟨hread, hwrite⟩ := not_wellFormed_of_malformed h
  constructor
  · rw [perform, hwrite v]; rfl
  · rw [perform, hread]; rfl

/-! ### The memories -/

theorem MemoriesCanonical.of_hostPartKept {s t : State} (hs : MemoriesCanonical s) (hk : HostPartKept s t)
    (hfb : t.fb.wf (s.params.maxPacket + 20) = true) : MemoriesCanonical t := by
  rw [MemoriesCanonical, hk.params, hk.image]
  exact ⟨hs.1, hfb⟩

/-- A frame of at most `PACKET_SIZE` bytes of image stays inside a frame buffer that holds such a packet
(10_state.md R55). -/
theorem wf_frameOf_fb {s : State} {a n : Nat} (hs : MemoriesCanonical s) (hn : n ≤ s.cons.packetSize.toNat)
    (hp : s.cons.packetSize.toNat ≤ s.params.maxPacket) :
    (frameOf a n s).fb.wf (s.params.maxPacket + 20) = true := by
  rw [frameOf_fb]
  exact Memory.wf_writeBytes (by rw [frameBytes_length, sentPayload_length hn]; omega) hs.2

theorem memoriesCanonical_hardReset (i f : List Host.Cell) (s : State) : MemoriesCanonical (hardReset i f s) := by
  rw [MemoriesCanonical, hardReset_params, hardReset_image, hardReset_fb]
  exact ⟨Memory.wf_ofCells _ i, Memory.wf_ofCells _ f⟩

theorem MemoriesCanonical.effect {s t : State} (hs : MemoriesCanonical s) (h : Effect s t) : MemoriesCanonical t := by
  cases h with
  | image bytes _ hb => exact ⟨Memory.wf_writeBytes hb hs.1, hs.2⟩
  | frame a n _ _ hn hp => exact hs.of_hostPartKept (CommandEffect.frame a n hn).hostPartKept (wf_frameOf_fb hs hn hp)
  | pullPacket _ _ hp =>
    refine hs.of_hostPartKept CommandEffect.pullPacket.hostPartKept ?_
    rw [pullPacket_fb]
    exact wf_frameOf_fb hs le_rfl hp
  | hardReset i f => exact memoriesCanonical_hardReset i f s
  | free r v =>
    obtain ⟨f, en, a0, a1, ip, fp, -, heq⟩ := freeWrite_eq r v s
    rw [heq]
    exact hs
  | _ => exact hs

/-- Settles O53: an accepted image write ends inside `MAX_IMAGE`, a frame inside `MAX_PACKET + 20`, and a reset lists
its memories in canonical form. -/
theorem stepKeepsMemoriesCanonical : Obligations.StepKeepsMemoriesCanonical := fun _ _ hs h =>
  step_keeps (P := MemoriesCanonical) (fun _ _ _ hs => hs) (fun _ _ hs he => hs.effect he) hs h

end Sys2Proof.Machine
end

section
/-! SUPPORT. While samples remain the block's symbols stay (20_memory.md R75, 44_modulator.md R155): the commands that
open a block or make a frame are refused, and nothing else but a new session or a fatal error reaches either. -/

namespace Sys2Proof.Machine

/-- What fixes the symbols of the open block: all of the block but `OUT_POS`, and the frame (44_modulator.md R156). -/
structure SymbolsKept (s t : State) : Prop where
  kind : t.out.kind = s.out.kind
  src : t.out.src = s.out.src
  nsym : t.out.nsym = s.out.nsym
  sym : t.out.sym = s.out.sym
  fb : t.fb = s.fb
  frameLen : t.frameLen = s.frameLen

/-- The commands with "drained" among their state checks (30_encoding.md R83). -/
def needsDrained : Instr → Bool
  | .run | .pull | .frame | .mods _ | .modf | .blank _ => true
  | .nop | .sreset | .cfgchk | .scrld | .scrb _ | .crc | .mapb _ => false

theorem exec_of_not_drained {i : Instr} {s : State} (hi : needsDrained i = true) (hd : drained s = false) :
    exec i s = .next (raiseCmdErr .cmdSeq s) := by
  cases i with
  | run => simp [exec, execRun, hd]
  | pull => simp [exec, execPull, hd]
  | frame => simp [exec, execFrame, hd]
  | mods y => simp [exec, execMods, hd]
  | modf => simp [exec, execModf, hd]
  | blank us => simp [exec, execBlank, hd]
  | _ => cases hi

/-- A refusal keeps the symbols, so a guarded command is judged by what it does when accepted. -/
theorem SymbolsKept.of_whenAccepted {ok : Bool} {s t : State} {body : State → Result}
    (h : whenAccepted ok s body = .next t) (hbody : body s = .next t → SymbolsKept s t) : SymbolsKept s t := by
  obtain ⟨-, hb⟩ | ⟨-, rfl⟩ := whenAccepted_next h
  · exact hbody hb
  · constructor <;> rfl

theorem exec_symbolsKept {i : Instr} {s t : State} (h : exec i s = .next t) (hd : drained s = false)
    (hsreset : i ≠ .sreset) (herror : t.fsm ≠ .error) : SymbolsKept s t := by
  cases i with
  | run | pull | frame | mods | modf | blank =>
    rw [exec_of_not_drained rfl hd] at h
    cases h; constructor <;> rfl
  | sreset => exact absurd rfl hsreset
  | nop => cases h; constructor <;> rfl
  | cfgchk =>
    rw [exec, execCfgchk] at h
    refine .of_whenAccepted h fun hb => ?_
    split at hb <;> cases hb
    · exact absurd rfl herror
    · constructor <;> rfl
  | crc =>
    rw [exec, execCrc] at h
    refine .of_whenAccepted h fun hb => ?_
    split at hb <;> cases hb <;> constructor <;> rfl
  | scrld | scrb | mapb =>
    simp only [exec, execScrld, execScrb, execMapb] at h
    refine .of_whenAccepted h fun hb => ?_
    cases hb; constructor <;> rfl

theorem ReadEffect.symbolsKept {r : Reg} {s t : State} (h : ReadEffect s r t) (herror : t.fsm ≠ .error) :
    SymbolsKept s t := by
  cases h with
  | overflow => exact absurd rfl herror
  | _ => constructor <;> rfl

theorem WriteEffect.symbolsKept {r : Reg} {v : Word} {s t : State} (h : WriteEffect s r v t) : SymbolsKept s t := by
  cases h <;> constructor <;> rfl

/-- The word that starts a session is SRESET's (60_exceptions.md R235). -/
theorem ne_sreset_of_startsSession {w : Word} {i : Instr} (hw : decode w = .ok i)
    (h : startsSession (wr cmdOffset w) = false) : i ≠ .sreset := by
  rintro rfl
  rw [eq_encode_of_decode_sreset hw] at h
  cases h

theorem perform_symbolsKept {e : HostEvent} {s t : State} (h : perform e s = .next t) (hd : drained s = false)
    (hsession : startsSession e = false) (herror : t.fsm ≠ .error) : SymbolsKept s t := by
  cases perform_performed h with
  | badRead | badWrite | illegal | reservedRead | reservedWrite => constructor <;> rfl
  | read hr he => exact he.symbolsKept herror
  | write hr he => exact he.symbolsKept
  | command hw =>
    rw [perform_wr_cmd hw] at h
    exact exec_symbolsKept h hd (ne_sreset_of_startsSession hw hsession) herror
  | hardReset image fb => cases hsession

/-- Settles O42: samples that remain mean the block is not drained. -/
theorem anOpenBlocksSymbolsAreFixed : Obligations.AnOpenBlocksSymbolsAreFixed := by
  intro s t e h hremain hsession herror
  obtain ⟨hkind, hsrc, hnsym, hsym, hfb, hlen⟩ := perform_symbolsKept h (decide_eq_false hremain) hsession herror
  exact ⟨hkind, hsrc, hnsym, hsym, hfb, hlen⟩

end Sys2Proof.Machine
end

section
/-! SUPPORT. The encoding (30_encoding.md R80 to R85): what the decoder answers by the rows of the opcode map, the two
directions between commands and words, and the commands a state refuses. -/

namespace Sys2Proof.Machine

/-! ### The fields of a command word -/

theorem toNat_opcOf (w : Word) : (opcOf w).toNat = w.toNat / 2 ^ 24 := by
  have := w.isLt
  rw [opcOf, BitVec.extractLsb'_toNat, Nat.shiftRight_eq_div_pow, Nat.mod_eq_of_lt (by omega)]

theorem toNat_immOf (w : Word) : (immOf w).toNat = w.toNat % 2 ^ 24 := by
  rw [immOf, BitVec.extractLsb'_toNat, Nat.shiftRight_zero]

/-! ### Operand fields -/

/-- The width of a format's operand, the low bits of `IMM` (30_encoding.md R81). -/
def operandBits : Format → Nat
  | .z | .a => 0
  | .b => 8
  | .y => 2
  | .d => 24

/-- The reserved bits of a format are those from its operand's width on. -/
theorem reservedMask_eq (f : Format) : f.reservedMask = BitVec.allOnes 24 <<< operandBits f := by
  cases f <;> rfl

/-- No bit from `k` on is set exactly when the value fits `k` bits. -/
theorem and_allOnes_shiftLeft_eq_zero_iff {n : Nat} (x : BitVec n) (k : Nat) :
    x &&& BitVec.allOnes n <<< k = 0#n ↔ x.toNat < 2 ^ k := by
  constructor
  · intro h
    refine Nat.lt_pow_two_of_testBit _ fun i hi => ?_
    rw [BitVec.testBit_toNat]
    by_cases hin : i < n
    · have hbit := congrArg (·.getLsbD i) h
      simpa [hin, hi, Nat.not_lt.2 hi, show i - k < n by omega] using hbit
    · exact BitVec.getLsbD_of_ge x i (by omega)
  · intro h
    apply BitVec.eq_of_getLsbD_eq
    intro i hi
    by_cases hik : i < k
    · simp [hik]
    · have hbit : x.getLsbD i = false :=
        Nat.testBit_lt_two_pow (h.trans_le (Nat.pow_le_pow_right (by omega) (by omega)))
      simp [hbit]

/-- An immediate leaves the reserved bits of a format 0 exactly when it fits the operand (30_encoding.md R81). -/
theorem and_reservedMask_eq_zero_iff (f : Format) (imm : BitVec 24) :
    imm &&& f.reservedMask = 0#24 ↔ imm.toNat < 2 ^ operandBits f := by
  rw [reservedMask_eq, and_allOnes_shiftLeft_eq_zero_iff]

/-! ### The decoder by rows -/

/-- An opcode names one row of the map (30_encoding.md R82). -/
theorem find?_opcodeMap {row : OpRow} (hrow : row ∈ opcodeMap) :
    opcodeMap.find? (fun r => r.opc == row.opc) = some row := by
  revert row
  simp [opcodeMap]

/-- A word of a row's opcode whose immediate fits the row's operand is the row's command. -/
theorem decode_of_row {w : Word} {row : OpRow} (hrow : row ∈ opcodeMap) (hopc : row.opc = opcOf w)
    (himm : (immOf w).toNat < 2 ^ operandBits row.format) : decode w = .ok (row.build (immOf w)) := by
  simp only [decode, ← hopc, find?_opcodeMap hrow]
  rw [if_pos ((and_reservedMask_eq_zero_iff _ _).2 himm)]

/-- The legal words: an opcode of the map with an immediate that fits its operand (30_encoding.md R85). -/
theorem exists_decode_ok_iff (w : Word) : (∃ i, decode w = .ok i) ↔
    ∃ row ∈ opcodeMap, row.opc.toNat = w.toNat / 2 ^ 24 ∧ w.toNat % 2 ^ 24 < 2 ^ operandBits row.format := by
  simp only [← toNat_opcOf, ← toNat_immOf, ← BitVec.toNat_eq]
  constructor
  · rintro ⟨i, hi⟩
    obtain ⟨row, hrow, hopc, hmask, -⟩ := decode_ok hi
    exact ⟨row, hrow, hopc, (and_reservedMask_eq_zero_iff _ _).1 hmask⟩
  · rintro ⟨row, hrow, hopc, himm⟩
    exact ⟨_, decode_of_row hrow hopc himm⟩

/-! ### Commands to words and back -/

/-- An operand of `k` bits is read back from the immediate it is placed in. -/
theorem extractLsb'_setWidth_operand {k : Nat} (x : BitVec k) (hk : k ≤ 24) :
    (x.setWidth 24).extractLsb' 0 k = x := by
  rw [← BitVec.setWidth_eq_extractLsb' hk, BitVec.setWidth_setWidth_of_le x hk, BitVec.setWidth_eq]

theorem toNat_setWidth_operand_lt {k : Nat} (x : BitVec k) (hk : k ≤ 24) : (x.setWidth 24).toNat < 2 ^ k := by
  rw [BitVec.toNat_setWidth_of_le hk]
  exact x.isLt

/-- An immediate that fits `k` bits is its operand of `k` bits, placed. -/
theorem setWidth_extractLsb'_operand {k : Nat} {imm : BitVec 24} (himm : imm.toNat < 2 ^ k) :
    (imm.extractLsb' 0 k).setWidth 24 = imm := by
  apply BitVec.eq_of_toNat_eq
  rw [BitVec.toNat_setWidth, BitVec.extractLsb'_toNat, Nat.shiftRight_zero, Nat.mod_eq_of_lt himm,
    Nat.mod_eq_of_lt imm.isLt]

/-- Every well-formed command is built by a row of the map from an immediate that fits the row's operand. -/
theorem exists_row_of_wellFormed {i : Instr} (h : i.wellFormed = true) :
    ∃ row ∈ opcodeMap, ∃ imm : BitVec 24, imm.toNat < 2 ^ operandBits row.format ∧ row.build imm = i := by
  cases i with
  | nop => exact ⟨opcodeMap[0], List.getElem_mem _, 0, by decide, rfl⟩
  | sreset => exact ⟨opcodeMap[1], List.getElem_mem _, 0, by decide, rfl⟩
  | cfgchk => exact ⟨opcodeMap[2], List.getElem_mem _, 0, by decide, rfl⟩
  | run => exact ⟨opcodeMap[3], List.getElem_mem _, 0, by decide, rfl⟩
  | pull => exact ⟨opcodeMap[4], List.getElem_mem _, 0, by decide, rfl⟩
  | scrld => exact ⟨opcodeMap[5], List.getElem_mem _, 0, by decide, rfl⟩
  | scrb b =>
    exact ⟨opcodeMap[6], List.getElem_mem _, b.setWidth 24, toNat_setWidth_operand_lt b (by decide),
      congrArg Instr.scrb (extractLsb'_setWidth_operand b (by decide))⟩
  | crc => exact ⟨opcodeMap[7], List.getElem_mem _, 0, by decide, rfl⟩
  | frame => exact ⟨opcodeMap[8], List.getElem_mem _, 0, by decide, rfl⟩
  | mapb b =>
    exact ⟨opcodeMap[9], List.getElem_mem _, b.setWidth 24, toNat_setWidth_operand_lt b (by decide),
      congrArg Instr.mapb (extractLsb'_setWidth_operand b (by decide))⟩
  | mods y =>
    exact ⟨opcodeMap[10], List.getElem_mem _, y.setWidth 24, toNat_setWidth_operand_lt y (by decide),
      congrArg Instr.mods (extractLsb'_setWidth_operand y (by decide))⟩
  | modf => exact ⟨opcodeMap[11], List.getElem_mem _, 0, by decide, rfl⟩
  | blank us =>
    have hus : us < 2 ^ 24 := by simpa [Instr.wellFormed] using h
    exact ⟨opcodeMap[12], List.getElem_mem _, BitVec.ofNat 24 us, BitVec.isLt _,
      congrArg Instr.blank (by rw [BitVec.toNat_ofNat, Nat.mod_eq_of_lt hus])⟩

/-- The row's commands encode as the row's words, and are well-formed. -/
def EncodesRow (row : OpRow) : Prop :=
  ∀ imm : BitVec 24, imm.toNat < 2 ^ operandBits row.format →
    encode (row.build imm) = commandWord row.opc imm ∧ (row.build imm).wellFormed = true

/-- A row without operand has one command, of immediate 0 (formats Z and A, 30_encoding.md R81). -/
theorem encodesRow_of_no_operand {row : OpRow} (hbits : operandBits row.format = 0)
    (hconst : ∀ imm, row.build imm = row.build 0) (hword : encode (row.build 0) = commandWord row.opc 0)
    (hwf : (row.build 0).wellFormed = true) : EncodesRow row := by
  intro imm himm
  rw [hbits, Nat.pow_zero, Nat.lt_one_iff] at himm
  have hzero : imm = 0 := BitVec.eq_of_toNat_eq himm
  rw [hconst imm, hzero]
  exact ⟨hword, hwf⟩

theorem encodesRow_of_mem : ∀ row ∈ opcodeMap, EncodesRow row := by
  simp only [opcodeMap, List.forall_mem_cons]
  refine ⟨?_, ?_, ?_, ?_, ?_, ?_, ?scrb, ?_, ?_, ?mapb, ?mods, ?_, ?blank, by simp⟩
  case scrb | mapb | mods =>
    exact fun imm himm => ⟨congrArg (commandWord _) (setWidth_extractLsb'_operand himm), rfl⟩
  case blank =>
    exact fun imm _ => ⟨congrArg (commandWord _) (BitVec.ofNat_toNat ..), by simp [Instr.wellFormed, imm.isLt]⟩
  all_goals exact encodesRow_of_no_operand rfl (fun _ => rfl) rfl rfl

/-- Settles O1: the command is built by a row of the map, and the decoder finds that row again. -/
theorem decodingAnEncodedCommandGivesIt : Obligations.DecodingAnEncodedCommandGivesIt := by
  intro i h
  obtain ⟨row, hrow, imm, himm, rfl⟩ := exists_row_of_wellFormed h
  obtain ⟨hword, -⟩ := encodesRow_of_mem row hrow imm himm
  have himm' : immOf (commandWord row.opc imm) = imm := Laws.immOf_commandWord ..
  have hdecode := decode_of_row hrow (Laws.opcOf_commandWord row.opc imm).symm (by rwa [himm'])
  rw [hword, hdecode, himm']

/-- Settles O2: the row the decoder took encodes its command as the word's two fields. -/
theorem encodingADecodedWordGivesIt : Obligations.EncodingADecodedWordGivesIt := by
  intro w i h
  obtain ⟨row, hrow, hopc, hmask, rfl⟩ := decode_ok h
  obtain ⟨hword, hwf⟩ := encodesRow_of_mem row hrow (immOf w) ((and_reservedMask_eq_zero_iff _ _).1 hmask)
  exact ⟨by rw [hword, hopc, commandWord_fields], hwf⟩

/-- Settles O4: the legal words are encodings, and the other two fail the check they break. -/
theorem exampleWordsDecode : Obligations.ExampleWordsDecode := by
  have decode_encode := decodingAnEncodedCommandGivesIt
  exact ⟨decode_encode .sreset rfl, decode_encode .cfgchk rfl, decode_encode .run rfl, decode_encode .pull rfl,
    decode_encode (.scrb 0x41#8) rfl, decode_encode (.mapb 0xC9#8) rfl, decode_encode (.mods 3#2) rfl,
    decode_encode (.blank 60000) rfl, by decide, by decide⟩

/-! ### The state checks -/

/-- The states that accept a command (30_encoding.md R83). -/
def accepts (s : State) : Instr → Bool
  | .nop | .sreset => true
  | .cfgchk | .scrld | .scrb _ | .crc | .mapb _ => s.fsm.acceptsUnit
  | .run | .frame | .mods _ | .blank _ => s.fsm.acceptsDirect && drained s
  | .modf => s.fsm.acceptsDirect && drained s && frameValid s
  | .pull => s.fsm.running && drained s

/-- Every command is its state check, then a body. -/
theorem exec_eq_whenAccepted (i : Instr) (s : State) : ∃ body, exec i s = whenAccepted (accepts s i) s body := by
  cases i with
  | nop => exact ⟨execNop, rfl⟩
  | sreset => exact ⟨execSreset, rfl⟩
  | _ =>
    simp only [exec, execCfgchk, execRun, execPull, execScrld, execScrb, execCrc, execFrame, execMapb, execMods,
      execModf, execBlank, accepts]
    exact ⟨_, rfl⟩

/-- A command that is not accepted only raises `CMD_SEQ`. -/
theorem exec_of_not_accepts {i : Instr} {s : State} (h : accepts s i = false) :
    exec i s = .next (raiseCmdErr .cmdSeq s) := by
  obtain ⟨body, hexec⟩ := exec_eq_whenAccepted i s
  rw [hexec, h, whenAccepted_false]

theorem drained_eq_false {s : State} (h : outRemain s ≠ 0) : drained s = false := decide_eq_false h

/-- Settles O31: in each clause one conjunct of the command's state check is false. -/
theorem commandsOutOfStateRaiseCmdSeq : Obligations.CommandsOutOfStateRaiseCmdSeq := by
  intro s refused
  have hrefused {i : Instr} (h : accepts s i = false) : exec i s = refused := exec_of_not_accepts h
  refine ⟨fun hf => ?unit, fun h => ?direct, fun hlen => hrefused ?frame, fun h => hrefused ?pull⟩
  case unit =>
    have hcheck : s.fsm.acceptsUnit = false := by simpa [acceptsUnit_iff, ← Bool.not_eq_true] using hf
    exact ⟨hrefused hcheck, hrefused hcheck, hrefused hcheck, fun _ => ⟨hrefused hcheck, hrefused hcheck⟩⟩
  case direct =>
    have hcheck : (s.fsm.acceptsDirect && drained s) = false := by
      obtain hf | hd := h
      · have : s.fsm.acceptsDirect = false := by simpa [acceptsDirect_iff, ← Bool.not_eq_true] using hf
        rw [this, Bool.false_and]
      · rw [drained_eq_false hd, Bool.and_false]
    have hmodf : accepts s .modf = false := by rw [accepts, hcheck, Bool.false_and]
    exact ⟨hrefused hcheck, hrefused hcheck, hrefused hmodf, fun _ => hrefused hcheck, fun _ => hrefused hcheck⟩
  case frame => simp [accepts, frameValid, hlen]
  case pull =>
    obtain hf | hd := h
    · have : s.fsm.running = false := by simpa [running_iff, ← Bool.not_eq_true] using hf
      rw [accepts, this, Bool.false_and]
    · rw [accepts, drained_eq_false hd, Bool.and_false]

/-! ### Illegal words and the no-operation -/

/-- A write of an illegal word to `CMD` only raises `ILLEGAL_CMD` (30_encoding.md R84). -/
theorem perform_wr_cmd_illegal {w : Word} {e : DecodeError} (hw : decode w = .error e) (s : State) :
    perform (wr cmdOffset w) s = .next (raiseCmdErr .illegalCmd s) := by
  rw [perform_wr (by decide), hostWrite, regAt_cmd]
  simp only [writeCommand, hw]

/-- The opcodes and bounds of 30_encoding.md R85, written out, are those of the map's rows. -/
theorem legalWord_iff (w : Word) :
    (w.toNat / 2 ^ 24 ∈ [0x00, 0x01, 0x02, 0x03, 0x04, 0x10, 0x20, 0x21, 0x41] ∧ w.toNat % 2 ^ 24 = 0) ∨
      (w.toNat / 2 ^ 24 ∈ [0x11, 0x30] ∧ w.toNat % 2 ^ 24 < 2 ^ 8) ∨
      (w.toNat / 2 ^ 24 = 0x40 ∧ w.toNat % 2 ^ 24 < 2 ^ 2) ∨
      w.toNat / 2 ^ 24 = 0x50 ↔ ∃ i, decode w = .ok i := by
  have himm : w.toNat % 2 ^ 24 < 16777216 := Nat.mod_lt _ (by decide)
  rw [exists_decode_ok_iff]
  generalize w.toNat / 2 ^ 24 = opc
  generalize w.toNat % 2 ^ 24 = imm at himm ⊢
  simp only [opcodeMap, operandBits, List.mem_cons, List.not_mem_nil, or_false, exists_eq_or_imp, ↓existsAndEq,
    BitVec.toNat_ofNat, Nat.reducePow, Nat.reduceMod, Nat.lt_one_iff, himm, and_true, true_and, @eq_comm _ _ opc]
  constructor
  · rintro (⟨h | h | h | h | h | h | h | h | h, himm⟩ | ⟨h | h, himm⟩ | ⟨h, himm⟩ | h) <;> simp [h, himm]
  · rintro (h | h | h | h | h | h | h | h | h | h | h | h | h) <;> simp [h]

/-- Only NOP and SRESET are accepted in `ERROR` (30_encoding.md R83). -/
theorem accepts_of_error {i : Instr} {s : State} (hf : s.fsm = .error) (hnop : i ≠ .nop) (hsreset : i ≠ .sreset) :
    accepts s i = false := by
  cases i with
  | nop => exact absurd rfl hnop
  | sreset => exact absurd rfl hsreset
  | _ => simp [accepts, hf, Fsm.acceptsUnit, Fsm.acceptsDirect, Fsm.running]

/-- The reset state, but in `ERROR`: a state that tells every command from NOP. -/
def errorState : State := { State.reset with fsm := .error }

/-- Every command but NOP changes the error state: SRESET leaves `ERROR`, and the others are refused, which sets the
sticky bit. -/
theorem exec_errorState_ne {i : Instr} (h : i ≠ .nop) : exec i errorState ≠ .next errorState := by
  intro hstay
  by_cases hsreset : i = .sreset
  · subst hsreset
    have hfsm : Fsm.idle = Fsm.error := congrArg State.fsm (Host.Outcome.next.inj hstay)
    cases hfsm
  · rw [exec_of_not_accepts (accepts_of_error rfl h hsreset)] at hstay
    have hsticky : true = false := congrArg (·.err.cmdErr) (Host.Outcome.next.inj hstay)
    cases hsticky

/-- Settles O3: the legal words are those that decode, and one state tells every command from NOP. -/
theorem reservedWordsAreIllegal : Obligations.ReservedWordsAreIllegal := by
  refine ⟨fun w s => ?_, fun i => ⟨fun h => ?_, fun h _ => h ▸ rfl⟩⟩
  · split
    · rename_i hlegal
      obtain ⟨i, hi⟩ := (legalWord_iff w).1 hlegal
      exact ⟨i, hi, perform_wr_cmd hi s⟩
    · rename_i hillegal
      rw [legalWord_iff] at hillegal
      cases hw : decode w with
      | ok i => exact absurd ⟨i, hw⟩ hillegal
      | error e => exact perform_wr_cmd_illegal hw s
  · by_contra hne
    exact exec_errorState_ne hne (h errorState)

end Sys2Proof.Machine
end

section
/-! PROOFS. The scrambler (41_scrambler.md): one step of the generator in the arithmetic of R100, the keystream as its
iterates, and the commands SCRLD and SCRB. -/

namespace Sys2Proof.Machine

/-! ### One step of R100 -/

/-- The key byte as R100 spells it: `s >> 24`. -/
theorem keyByte_eq (x : Word) : keyByte x = (x >>> 24).setWidth 8 :=
  BitVec.setWidth_ushiftRight_eq_extractLsb.symm

/-- The step as R100 spells it, on naturals. -/
theorem lcgNext_eq (x : Word) : lcgNext x = BitVec.ofNat 32 ((x.toNat * 1664525 + 1013904223) % 2 ^ 32) := by
  apply BitVec.eq_of_toNat_eq
  rw [lcgNext, BitVec.toNat_add, BitVec.toNat_mul, BitVec.toNat_ofNat, BitVec.toNat_ofNat, BitVec.toNat_ofNat]
  omega

/-- State 0 sends a byte as it is. -/
theorem keyByte_zero : keyByte 0#32 = 0#8 := by decide

theorem lcgNext_zero : lcgNext 0#32 = 1013904223#32 := by decide

/-! ### The keystream -/

@[simp] theorem scrambled_nil (x : Word) : scrambled x [] = [] := rfl

@[simp] theorem scrambled_cons (x : Word) (b : Byte) (bs : List Byte) :
    scrambled x (b :: bs) = (b ^^^ keyByte x) :: scrambled (lcgNext x) bs := rfl

@[simp] theorem keystreamAfter_nil (x : Word) : keystreamAfter x [] = x := rfl

@[simp] theorem keystreamAfter_cons (x : Word) (b : Byte) (bs : List Byte) :
    keystreamAfter x (b :: bs) = keystreamAfter (lcgNext x) bs := rfl

/-- The state left is one step a byte, so it depends on how many bytes were scrambled and not on which. -/
theorem keystreamAfter_eq_iterate (x : Word) (bs : List Byte) : keystreamAfter x bs = lcgNext^[bs.length] x := by
  induction bs generalizing x with
  | nil => rfl
  | cons b bs ih => rw [keystreamAfter_cons, ih, List.length_cons, Function.iterate_succ_apply]

theorem keystreamAfter_append (x : Word) (as bs : List Byte) :
    keystreamAfter x (as ++ bs) = keystreamAfter (keystreamAfter x as) bs := by
  simp only [keystreamAfter_eq_iterate, List.length_append, Nat.add_comm as.length, Function.iterate_add_apply]

theorem keystreamAfter_scrambled (x y : Word) (bs : List Byte) :
    keystreamAfter x (scrambled y bs) = keystreamAfter x bs := by
  simp only [keystreamAfter_eq_iterate, scrambled_length]

/-- The keystream is cumulative: a second call goes on where the first left off (41_scrambler.md R101). -/
theorem scrambled_append (x : Word) (as bs : List Byte) :
    scrambled x (as ++ bs) = scrambled x as ++ scrambled (keystreamAfter x as) bs := by
  induction as generalizing x with
  | nil => rfl
  | cons a as ih => simp only [List.cons_append, scrambled_cons, keystreamAfter_cons, ih]

/-- Scrambling is its own inverse: both passes meet the same key bytes (41_scrambler.md R104). -/
theorem scrambled_scrambled (x : Word) (bs : List Byte) : scrambled x (scrambled x bs) = bs := by
  induction bs generalizing x with
  | nil => rfl
  | cons b bs ih => rw [scrambled_cons, scrambled_cons, ih, BitVec.xor_assoc, BitVec.xor_self, BitVec.xor_zero]

/-- Settles O43: the recursion of the two functions, in the arithmetic of R100, and the laws of the keystream. -/
theorem keystreamIsCumulativeAndReversible : Obligations.KeystreamIsCumulativeAndReversible := by
  intro x a b
  refine ⟨scrambled_nil x, keystreamAfter_nil x, fun y => ⟨?sent, ?left⟩, scrambled_append x a b,
    keystreamAfter_append x a b, scrambled_length x a, scrambled_scrambled x a, keystreamAfter_scrambled x x a,
    fun y => ?zero⟩
  case sent => rw [scrambled_cons, keyByte_eq, lcgNext_eq]
  case left => rw [keystreamAfter_cons, lcgNext_eq]
  case zero => rw [scrambled_cons, keyByte_zero, lcgNext_zero, BitVec.xor_zero]

/-! ### The commands -/

/-- Settles O24: the state check passes, and the seed is copied. -/
theorem scrldLoadsTheSeed : Obligations.ScrldLoadsTheSeed := by
  intro s hf
  rw [exec, execScrld, acceptsUnit_iff.2 hf, whenAccepted_true]

/-- Settles O25: the state check passes, and the byte takes one step of R100. -/
theorem scrbScramblesOneByte : Obligations.ScrbScramblesOneByte := by
  intro b s hf
  rw [exec, execScrb, acceptsUnit_iff.2 hf, whenAccepted_true, keyByte_eq, lcgNext_eq, byteWord]

end Sys2Proof.Machine
end

section
/-! PROOFS. The packet framer (42_framer.md): the frame function in the words of R125, the frame's bytes in the buffer by
the table of R122, and the commands CRC and FRAME. -/

namespace Sys2Proof.Machine

/-! ### The checksum -/

/-- Settles O45: the two vectors are run, and the two exclusive-ors of the empty sequence cancel. -/
theorem crcCheckValues : Obligations.CrcCheckValues :=
  ⟨by decide +kernel, BitVec.xor_self, by decide +kernel⟩

/-- The CRC's bytes are read back big-endian (42_framer.md R122, 20_memory.md R65). -/
theorem toNat_eq_bigEndian (c : Word) :
    c.toNat = (c.extractLsb' 24 8).toNat * 2 ^ 24 + (c.extractLsb' 16 8).toNat * 2 ^ 16 +
      (c.extractLsb' 8 8).toNat * 2 ^ 8 + (c.extractLsb' 0 8).toNat := by
  have hc := c.isLt
  simp only [BitVec.extractLsb'_toNat, Nat.shiftRight_eq_div_pow]
  omega

/-! ### The frame function -/

/-- The padded payload byte by byte, as the first two loops of R125. -/
theorem paddedPayload_eq {a n : Nat} {s : State} (hn : n ≤ s.cons.packetSize.toNat) :
    paddedPayload a n s =
      (List.range s.cons.packetSize.toNat).map fun i => if i < n then imageByte s (a + i) else 0xFF#8 := by
  apply List.ext_getElem
  · rw [paddedPayload_length hn, List.length_map, List.length_range]
  · intro i _ _
    rw [List.getElem_map, List.getElem_range]
    simp only [paddedPayload]
    split
    case isTrue hi =>
      rw [List.getElem_append_left (by rwa [imageBytes_length])]
      simp only [imageBytes, List.getElem_map, List.getElem_range]
    case isFalse hi =>
      rw [List.getElem_append_right (by rw [imageBytes_length]; omega), List.getElem_replicate]

/-- The frame length register, on bit vectors and on naturals. -/
theorem frameLength_eq (w : Word) : w + 20#32 = BitVec.ofNat 32 (w.toNat + 20) := by
  rw [BitVec.ofNat_add, BitVec.ofNat_toNat, BitVec.setWidth_eq]

/-- The scrambler's part of a frame: `PACKET_SIZE` steps when enabled, and the session starts unless the packet is empty
(42_framer.md R125, 41_scrambler.md R101). -/
theorem frameSession_session_eq {a n : Nat} {s : State} (hn : n ≤ s.cons.packetSize.toNat) :
    (frameSession a n s).session = { s.session with
      scrState :=
        if s.cons.scrEn then keystreamAfter s.session.scrState (paddedPayload a n s) else s.session.scrState
      started := s.session.started || (s.cons.scrEn && decide (s.cons.packetSize.toNat ≠ 0)) } := by
  have hempty : (paddedPayload a n s).isEmpty = decide (s.cons.packetSize.toNat = 0) := by
    rw [Bool.eq_iff_iff, decide_eq_true_iff, List.isEmpty_iff_length_eq_zero, paddedPayload_length hn]
  rw [frameSession_session]
  cases s.cons.scrEn with
  | true => simp [hempty]
  | false => simp

/-- Everything a frame changes (42_framer.md R125). -/
theorem frameOf_eq {a n : Nat} {s : State} (hn : n ≤ s.cons.packetSize.toNat) :
    frameOf a n s = { s with
      session := { s.session with
        scrState :=
          if s.cons.scrEn then keystreamAfter s.session.scrState (paddedPayload a n s) else s.session.scrState
        started := s.session.started || (s.cons.scrEn && decide (s.cons.packetSize.toNat ≠ 0)) }
      fb := (frameOf a n s).fb
      frameLen := BitVec.ofNat 32 (s.cons.packetSize.toNat + 20)
      result := crc32 (sentPayload a n s) } := by
  rw [← frameSession_session_eq hn, ← frameLength_eq, frameOf_fb]
  rfl

/-! ### The frame in the buffer -/

/-- The memory starts with the frame of a payload (42_framer.md R122). -/
def HoldsFrame (m : Memory) (payload : List Byte) : Prop :=
  ∀ i, i < payload.length + 20 → m.read i = (frameBytes payload).getD i 0

/-- A frame that fits is held by the buffer after it is made. -/
theorem holdsFrame_frameOf {s : State} {a n : Nat} (hn : n ≤ s.cons.packetSize.toNat)
    (hp : s.cons.packetSize.toNat ≤ s.params.maxPacket) (hfb : s.fb.wf (s.params.maxPacket + 20) = true) :
    HoldsFrame (frameOf a n s).fb (sentPayload a n s) := by
  intro i hi
  have hlen := frameBytes_length (sentPayload a n s)
  have hi' : i < (frameBytes (sentPayload a n s)).length := by omega
  have hread := Memory.read_writeBytes (a := 0) hfb (by rw [hlen, sentPayload_length hn]; omega) hi'
  rw [frameOf_fb, List.getD_eq_getElem _ _ hi', ← hread, Nat.zero_add]

section
variable {m : Memory} {payload : List Byte}

theorem HoldsFrame.read_preamble (h : HoldsFrame m payload) {i : Nat} (hi : i < 16) :
    m.read i = preamble.getD i 0 := by
  rw [h i (by omega), frameBytes, List.append_assoc, List.getD_append _ _ _ _ (by rwa [preamble_length])]

theorem HoldsFrame.read_payload (h : HoldsFrame m payload) {i : Nat} (hi : i < payload.length) :
    m.read (16 + i) = payload.getD i 0 := by
  rw [h (16 + i) (by omega), frameBytes, List.append_assoc,
    List.getD_append_right _ _ _ _ (by rw [preamble_length]; omega), preamble_length, Nat.add_sub_cancel_left,
    List.getD_append _ _ _ _ hi]

theorem HoldsFrame.read_crc (h : HoldsFrame m payload) {j : Nat} (hj : j < 4) :
    m.read (16 + j + payload.length) = (crcBytes (crc32 payload)).getD j 0 := by
  have hlen : (preamble ++ payload).length = 16 + payload.length := by rw [List.length_append, preamble_length]
  rw [h _ (by omega), frameBytes, List.getD_append_right _ _ _ _ (by omega), hlen]
  congr 1
  omega

/-- The three runs of the preamble (42_framer.md R121). -/
theorem HoldsFrame.read_markers (h : HoldsFrame m payload) :
    (∀ i, i < 8 → m.read i = 0x00#8) ∧ (∀ i, 8 ≤ i → i < 12 → m.read i = 0x99#8) ∧
      (∀ i, 12 ≤ i → i < 16 → m.read i = 0xCC#8) := by
  have hruns : ∀ i < 16, preamble.getD i 0 = if i < 8 then 0x00#8 else if i < 12 then 0x99#8 else 0xCC#8 := by decide
  refine ⟨fun i hi => ?zeros, fun i hlo hi => ?first, fun i hlo hi => ?second⟩
  all_goals rw [h.read_preamble (by omega), hruns i (by omega)]
  case zeros => rw [if_pos hi]
  case first => rw [if_neg (by omega), if_pos hi]
  case second => rw [if_neg (by omega), if_neg (by omega)]

/-- The payload bytes held are the payload. -/
theorem HoldsFrame.payload_eq (h : HoldsFrame m payload) :
    (List.range payload.length).map (fun j => m.read (16 + j)) = payload := by
  apply List.ext_getElem
  · rw [List.length_map, List.length_range]
  · intro j _ hj
    rw [List.getElem_map, List.getElem_range, h.read_payload hj, List.getD_eq_getElem _ _ hj]

/-- The payload's CRC is the four trailing bytes, big-endian (42_framer.md R126). -/
theorem HoldsFrame.toNat_crc32 (h : HoldsFrame m payload) :
    (crc32 payload).toNat =
      (m.read (16 + payload.length)).toNat * 2 ^ 24 + (m.read (17 + payload.length)).toNat * 2 ^ 16 +
        (m.read (18 + payload.length)).toNat * 2 ^ 8 + (m.read (19 + payload.length)).toNat := by
  rw [toNat_eq_bigEndian, h.read_crc (j := 0) (by decide), h.read_crc (j := 1) (by decide),
    h.read_crc (j := 2) (by decide), h.read_crc (j := 3) (by decide)]
  rfl

end

/-! ### The commands -/

theorem drained_eq_true {s : State} (h : outRemain s = 0) : drained s = true := decide_eq_true h

theorem argOutOfRange_eq_true {s : State} (h : 2 ^ 32 < s.arg0.toNat + s.arg1.toNat) : argOutOfRange s = true :=
  decide_eq_true h

theorem argOutOfRange_eq_false {s : State} (h : s.arg0.toNat + s.arg1.toNat ≤ 2 ^ 32) : argOutOfRange s = false :=
  decide_eq_false (Nat.not_lt.2 h)

theorem frameFits_eq_true {s : State} (h : s.cons.packetSize.toNat ≤ s.params.maxPacket) : frameFits s = true :=
  decide_eq_true h

/-- CRC in its accepted states (42_framer.md R123). -/
theorem exec_crc {s : State} (hf : s.fsm = .idle ∨ s.fsm = .ready ∨ s.fsm = .done) :
    exec .crc s = if argOutOfRange s then .next (raiseCmdErr .argRange s)
      else .next { s with result := crc32 (imageBytes s (argAddress s) (argLength s)) } := by
  rw [exec, execCrc, acceptsUnit_iff.2 hf, whenAccepted_true]

/-- FRAME in its accepted states, the block drained (42_framer.md R124). -/
theorem exec_frame {s : State} (hf : s.fsm = .ready ∨ s.fsm = .done) (hd : outRemain s = 0) :
    exec .frame s = if argOutOfRange s then .next (raiseCmdErr .argRange s)
      else if argLength s > s.cons.packetSize.toNat then .next (raiseFatal .frameOversize s.arg1 s)
      else if frameFits s then .next (frameOf (argAddress s) (argLength s) s)
      else .fault .frameBufferBounds := by
  rw [exec, execFrame, acceptsDirect_iff.2 hf, drained_eq_true hd, Bool.and_self, whenAccepted_true]

/-- FRAME with checked arguments and room in the buffer. -/
theorem exec_frame_of_fits {s : State} (hf : s.fsm = .ready ∨ s.fsm = .done) (hd : outRemain s = 0)
    (hrange : s.arg0.toNat + s.arg1.toNat ≤ 2 ^ 32) (hn : s.arg1.toNat ≤ s.cons.packetSize.toNat)
    (hp : s.cons.packetSize.toNat ≤ s.params.maxPacket) :
    exec .frame s = .next (frameOf s.arg0.toNat s.arg1.toNat s) := by
  rw [exec_frame hf hd, argOutOfRange_eq_false hrange, if_neg Bool.false_ne_true, argAddress, argLength,
    if_neg (Nat.not_lt.2 hn), frameFits_eq_true hp, if_pos rfl]

/-- PULL in `PACKET`, the block drained and the packet within the buffer (46_pacing.md R196). -/
theorem exec_pull_of_packet {s : State} (hf : s.fsm = .packet) (hd : outRemain s = 0)
    (hp : s.cons.packetSize.toNat ≤ s.params.maxPacket) : exec .pull s = .next (pullPacket s) := by
  rw [exec, execPull, running_iff.2 (.inr (.inl hf)), drained_eq_true hd, Bool.and_self, whenAccepted_true]
  simp only [hf, frameFits_eq_true hp, if_true]

/-- Settles O26: the state check and the range check pass, and the image bytes are those of R64. -/
theorem crcChecksumsTheImageRange : Obligations.CrcChecksumsTheImageRange := by
  intro s hf hrange
  rw [exec_crc hf, argOutOfRange_eq_false hrange]
  rfl

/-- Settles O28: the range check comes first, and the length check of FRAME second. -/
theorem crcAndFrameCheckTheirArguments : Obligations.CrcAndFrameCheckTheirArguments := by
  intro s refused
  refine ⟨fun hf hout => ?crc, fun hf hd hout => ?frame, fun hf hd hrange hlong => ?oversize⟩
  case crc => rw [exec_crc hf, argOutOfRange_eq_true hout]; rfl
  case frame => rw [exec_frame hf hd, argOutOfRange_eq_true hout]; rfl
  case oversize =>
    rw [exec_frame hf hd, argOutOfRange_eq_false hrange, if_neg Bool.false_ne_true, argLength, if_pos hlong]
    rfl

/-- Settles O27: the padded payload is R125's, and the buffer holds the frame of the bytes sent. -/
theorem frameFillsTheFrameBuffer : Obligations.FrameFillsTheFrameBuffer := by
  intro s hf hd hrange hn hp hfb ps plain sent
  have hplain : paddedPayload s.arg0.toNat s.arg1.toNat s = plain := paddedPayload_eq hn
  have hsent : sentPayload s.arg0.toNat s.arg1.toNat s = sent := by rw [sentPayload, hplain]
  have hlen : sent.length = ps := by rw [← hsent, sentPayload_length hn]
  have hheld : HoldsFrame (frameOf s.arg0.toNat s.arg1.toNat s).fb sent := hsent ▸ holdsFrame_frameOf hn hp hfb
  obtain ⟨hzeros, hfirst, hsecond⟩ := hheld.read_markers
  have hcrc {j : Nat} (hj : j < 4) := hheld.read_crc hj
  rw [hlen] at hcrc
  refine ⟨_, ?state, hzeros, hfirst, hsecond, fun i hi => hheld.read_payload (hlen ▸ hi), hcrc (j := 0) (by decide),
    hcrc (j := 1) (by decide), hcrc (j := 2) (by decide), hcrc (j := 3) (by decide),
    fun i hi => read_frameOf_beyond hn hi⟩
  case state => rw [exec_frame_of_fits hf hd hrange hn hp, frameOf_eq hn, hplain, hsent]

/-- A frame carries the CRC-32 of its own payload (42_framer.md R126). -/
theorem frameOf_checks_itself {s : State} {a n : Nat} (hn : n ≤ s.cons.packetSize.toNat)
    (hp : s.cons.packetSize.toNat ≤ s.params.maxPacket) (hfb : s.fb.wf (s.params.maxPacket + 20) = true) :
    let ps := s.cons.packetSize.toNat
    let m := (frameOf a n s).fb
    (frameOf a n s).frameLen.toNat = ps + 20 ∧
    (crc32 ((List.range ps).map fun j => m.read (16 + j))).toNat =
      (m.read (16 + ps)).toNat * 2 ^ 24 + (m.read (17 + ps)).toNat * 2 ^ 16 + (m.read (18 + ps)).toNat * 2 ^ 8 +
        (m.read (19 + ps)).toNat := by
  intro ps m
  have hheld : HoldsFrame m (sentPayload a n s) := holdsFrame_frameOf hn hp hfb
  have hmax := s.params.maxPacket_le
  have hpayload := hheld.payload_eq
  have hcrc := hheld.toNat_crc32
  rw [sentPayload_length hn] at hpayload hcrc
  refine ⟨?length, hpayload.symm ▸ hcrc⟩
  rw [frameOf_frameLen, frameLength_eq, BitVec.toNat_ofNat, Nat.mod_eq_of_lt (by omega)]

/-- With scrambling off the bytes beyond the payload are sent as the fill (42_framer.md R126). -/
theorem read_frameOf_padding {s : State} {a n j : Nat} (hn : n ≤ s.cons.packetSize.toNat)
    (hp : s.cons.packetSize.toNat ≤ s.params.maxPacket) (hfb : s.fb.wf (s.params.maxPacket + 20) = true)
    (hen : s.cons.scrEn = false) (hnj : n ≤ j) (hj : j < s.cons.packetSize.toNat) :
    (frameOf a n s).fb.read (16 + j) = 0xFF#8 := by
  have hj' : j < (sentPayload a n s).length := by rwa [sentPayload_length hn]
  rw [(holdsFrame_frameOf hn hp hfb).read_payload hj', sentPayload, hen, if_neg Bool.false_ne_true,
    paddedPayload_eq hn, List.getD_eq_getElem _ _ (by simpa using hj), List.getElem_map, List.getElem_range,
    if_neg (by omega)]

/-- Settles O44: both commands leave the buffer and the length of one frame function. -/
theorem theFrameChecksItself : Obligations.TheFrameChecksItself := by
  intro i s hi hd hp hfb ps
  obtain ⟨rfl, hf, hrange, hn⟩ | ⟨rfl, hf⟩ := hi
  case inl =>
    obtain ⟨hlen, hcrc⟩ := frameOf_checks_itself (a := s.arg0.toNat) hn hp hfb
    exact ⟨_, exec_frame_of_fits hf hd hrange hn hp, hlen, hcrc, fun _ hen _ => read_frameOf_padding hn hp hfb hen⟩
  case inr =>
    obtain ⟨hlen, hcrc⟩ := frameOf_checks_itself (a := s.ctl.offset.toNat) le_rfl hp hfb
    rw [← pullPacket_fb] at hcrc
    exact ⟨_, exec_pull_of_packet hf hd hp, hlen, hcrc, nofun⟩

end Sys2Proof.Machine
end

section
/-! PROOFS. The symbol mapper (43_mapper.md): a byte's symbols by index, the stream of a byte sequence by index, and the
lanes of MAPB's result as a sum. -/

namespace Sys2Proof.Machine

/-! ### The symbol stream -/

/-- A byte's symbols by index, in the shift of R142. -/
theorem getElem?_symbolsOf (b : Byte) {k : Nat} (hk : k < 4) :
    (symbolsOf b)[k]? = some ((b >>> (6 - 2 * k)).setWidth 2) := by
  rw [BitVec.setWidth_ushiftRight_eq_extractLsb]
  match k, hk with
  | 0, _ | 1, _ | 2, _ | 3, _ => rfl

/-- Four symbols to a byte: index `i` of the stream is symbol `i mod 4` of byte `i div 4`. -/
theorem getElem?_symbolStream (x : List Byte) (i : Nat) :
    (symbolStream x)[i]? = x[i / 4]?.bind fun b => (symbolsOf b)[i % 4]? := by
  induction x generalizing i with
  | nil => rfl
  | cons b x ih =>
    have hsplit : symbolStream (b :: x) = symbolsOf b ++ symbolStream x := List.flatMap_cons
    have hlen : (symbolsOf b).length = 4 := rfl
    rw [hsplit]
    obtain hi | hi := Nat.lt_or_ge i 4
    case inl =>
      rw [List.getElem?_append_left (hlen ▸ hi), Nat.div_eq_of_lt hi, Nat.mod_eq_of_lt hi]
      rfl
    case inr =>
      obtain ⟨j, rfl⟩ := Nat.exists_eq_add_of_le' hi
      rw [List.getElem?_append_right hi, hlen, Nat.add_sub_cancel, ih, Nat.add_div_right j (by decide),
        List.getElem?_cons_succ, Nat.add_mod_right]

/-- Settles O46: the stream by index, at a byte of the frame buffer. -/
theorem frameSymbolsAreTheMapperStream : Obligations.FrameSymbolsAreTheMapperStream := by
  intro s n i hi
  have hbyte : ((List.range n).map fun j => s.fb.read j)[i / 4]? = some (s.fb.read (i / 4)) := by
    rw [List.getElem?_map, List.getElem?_range (Nat.div_lt_of_lt_mul hi), Option.map_some]
  rw [getElem?_symbolStream, hbyte, Option.bind_some, getElem?_symbolsOf _ (Nat.mod_lt i (by decide)), symFb]

/-! ### MAPB -/

/-- A symbol put in a lane above the bits held adds its multiple. -/
theorem ofNat_or_lane {a k : Nat} (y : Symbol) (ha : a < 2 ^ k) :
    BitVec.ofNat 32 a ||| y.setWidth 32 <<< k = BitVec.ofNat 32 (a + y.toNat * 2 ^ k) := by
  have hlane : y.setWidth 32 <<< k = BitVec.ofNat 32 (y.toNat <<< k) :=
    congrArg (fun v => BitVec.ofNat 32 (v <<< k)) (BitVec.toNat_setWidth_of_le (by decide))
  rw [hlane, ← BitVec.ofNat_or, Nat.or_comm, ← Nat.shiftLeft_add_eq_or_of_lt ha, Nat.shiftLeft_eq, Nat.add_comm]

/-- A symbol of R140 is two bits of the byte, the lower at position `p`. -/
theorem toNat_extractSymbol (b : Byte) (p : Nat) : (b.extractLsb' p 2).toNat = b.toNat / 2 ^ p % 4 := by
  rw [BitVec.extractLsb'_toNat, Nat.shiftRight_eq_div_pow]

/-- The packing of R141 as a sum: each symbol lands in a lane above those before it. -/
theorem packSymbols_eq (b : Byte) :
    packSymbols b = BitVec.ofNat 32 (b.toNat / 64 % 4 + b.toNat / 16 % 4 * 2 ^ 8 + b.toNat / 4 % 4 * 2 ^ 16 +
      b.toNat % 4 * 2 ^ 24) := by
  have hfirst : (b.extractLsb' 6 2).setWidth 32 = BitVec.ofNat 32 (b.toNat / 2 ^ 6 % 4) := by
    rw [← BitVec.ofNat_toNat, toNat_extractSymbol]
  rw [packSymbols, hfirst, ofNat_or_lane _ (by omega), ofNat_or_lane _ (by rw [toNat_extractSymbol]; omega),
    ofNat_or_lane _ (by simp only [toNat_extractSymbol]; omega)]
  simp only [toNat_extractSymbol, Nat.reducePow, Nat.div_one]

/-- Settles O29: the state check passes, and `RESULT` takes the packing. -/
theorem mapbPacksTheSymbols : Obligations.MapbPacksTheSymbols := by
  intro b s hf
  rw [exec, execMapb, acceptsUnit_iff.2 hf, whenAccepted_true, packSymbols_eq]

end Sys2Proof.Machine
end

section
/-! SUPPORT. The machine's invariant: what an accepted configuration is, what one effect does to the signal (the rates,
the sample count and phase, the open block and the frame held) and to the controller's cursor, and each part of the
invariant kept by every effect. -/

namespace Sys2Proof.Machine

/-! ### The configuration CFGCHK accepts -/

theorem ite_some_eq_none_iff {α : Type} {c : Prop} [Decidable c] {a : α} {e : Option α} :
    (if c then some a else e) = none ↔ ¬c ∧ e = none := by
  by_cases h : c <;> simp [h]

theorem zeroCheck_eq_none_iff {s : State} :
    zeroCheck s = none ↔ s.cons.sampleRate ≠ 0 ∧ s.cons.carrierFreq ≠ 0 ∧ s.cons.bitRate ≠ 0 ∧
      s.cons.packetSize ≠ 0 ∧ s.pace.unitSize ≠ 0 := by
  simp only [zeroCheck, ite_some_eq_none_iff, ne_eq, and_true]

theorem toNat_pos_of_ne_zero {w : Word} (h : w ≠ 0) : 0 < w.toNat :=
  Nat.pos_of_ne_zero fun h0 => h (BitVec.eq_of_toNat_eq h0)

/-- The period check, in the divisibilities of 44_modulator.md R150. -/
theorem periods_of_not_bad {c : Cons} (h : periodSymbolBad c = false) :
    symbolSamples c < 2 ^ 32 ∧ (symbolSamples c ∣ carrierPeriod c ∨ carrierPeriod c ∣ symbolSamples c) := by
  simp only [periodSymbolBad, Bool.or_eq_false_iff, Bool.and_eq_false_iff, decide_eq_false_iff_not, not_not,
    ge_iff_le, not_le] at h
  obtain ⟨hlt, hmod⟩ := h
  exact ⟨hlt, hmod.imp Nat.dvd_of_mod_eq_zero Nat.dvd_of_mod_eq_zero⟩

/-- A configuration that passes every check of CFGCHK is legal (46_pacing.md R192). -/
theorem legalConfig_of_cfgError {s : State} (h : cfgError s = none) : LegalConfig s := by
  rw [cfgError, ite_some_eq_none_iff] at h
  obtain ⟨hstrategy, h⟩ := h
  split at h
  case h_1 => cases h
  case h_2 hzero =>
    obtain ⟨hsr, hfc, hbr, hps, hu⟩ := zeroCheck_eq_none_iff.1 hzero
    simp only [ite_some_eq_none_iff, not_not, not_or, not_lt, Bool.not_eq_true] at h
    obtain ⟨hcarrier, hbit, hperiod, hfits, hle, hdvd, ⟨himage, hpadded⟩, hsector⟩ := h
    obtain ⟨hsymbol, hperiods⟩ := periods_of_not_bad hperiod
    rw [symbolSamples_eq hbr] at hsymbol hperiods
    have hhalf : s.pace.strategy.toNat / 2 = 0 := by
      have := congrArg BitVec.toNat (not_not.1 hstrategy)
      rwa [BitVec.toNat_ushiftRight, Nat.shiftRight_eq_div_pow] at this
    refine ⟨by omega, toNat_pos_of_ne_zero hsr, toNat_pos_of_ne_zero hfc, toNat_pos_of_ne_zero hbr,
      toNat_pos_of_ne_zero hps, toNat_pos_of_ne_zero hu, Nat.dvd_of_mod_eq_zero hcarrier,
      Nat.dvd_of_mod_eq_zero hbit, hsymbol, hperiods, hfits, hle, Nat.dvd_of_mod_eq_zero hdvd, himage, by omega,
      fun hone => ?_⟩
    have hpaced : sectorPaced s.pace = true := by simp [sectorPaced, BitVec.getLsbD, hone]
    simp only [hpaced, if_true, ite_some_eq_none_iff, not_lt, and_true] at hsector
    exact hsector

/-- Outside `IDLE` and `ERROR` the configuration is legal (10_state.md R23, R27). -/
theorem ConfigValidated.legalConfig {s : State} (h : ConfigValidated s) (hi : s.fsm ≠ .idle) (he : s.fsm ≠ .error) :
    LegalConfig s := legalConfig_of_cfgError (h hi he)

theorem LegalConfig.symbolSamples_pos {s : State} (h : LegalConfig s) : 0 < symbolSamples s.cons := by
  have hbr : s.cons.bitRate ≠ 0 := fun h0 => absurd h.bit_pos (by simp [h0])
  rw [symbolSamples_eq hbr]
  have := Nat.div_pos (Nat.le_of_dvd h.rate_pos h.bit_dvd) h.bit_pos
  omega

/-- The padded length is a whole number of units (46_pacing.md R195). -/
theorem unitSize_dvd_paddedLength (p : Pace) : p.unitSize.toNat ∣ paddedLength p := Nat.dvd_mul_right _ _

/-! ### The sector table and the frame held -/

theorem paceWrite_sect {r : Reg} (v : Word) (p : Pace) {j : Fin 128} (h : r ≠ .sect j) :
    (paceWrite r v p).sect[j] = p.sect[j] := by
  cases r with
  | sect i =>
    have hij : i.val ≠ j.val := fun hij => h (congrArg Reg.sect (Fin.ext hij))
    exact Vector.getElem_set_ne i.isLt j.isLt hij
  | _ => rfl

theorem SectorTailClear.effect {s t : State} (hs : SectorTailClear s) (h : Effect s t) : SectorTailClear t := by
  cases h with
  | pace r v _ hr =>
    intro j hj
    have hrj : r ≠ .sect j := fun he => absurd (hr j he) (Nat.not_lt.2 hj)
    exact (paceWrite_sect v s.pace hrj).trans (hs j hj)
  | hardReset => exact fun j _ => Vector.getElem_replicate j.isLt
  | free r v =>
    obtain ⟨f, en, a0, a1, ip, fp, -, heq⟩ := freeWrite_eq r v s
    rw [heq]
    exact hs
  | _ => exact hs

/-- `FRAME_LEN` after a frame that fits the buffer does not wrap (10_state.md R55). -/
theorem toNat_frameLen_frameOf {s : State} (a n : Nat) (hp : s.cons.packetSize.toNat ≤ s.params.maxPacket) :
    (frameOf a n s).frameLen.toNat = s.cons.packetSize.toNat + 20 := by
  have hmax := s.params.maxPacket_le
  rw [frameOf_frameLen, frameLength_eq, BitVec.toNat_ofNat, Nat.mod_eq_of_lt (by omega)]

theorem frameHeldFits_frameOf {s : State} (a n : Nat) (hp : s.cons.packetSize.toNat ≤ s.params.maxPacket) :
    FrameHeldFits (frameOf a n s) := by
  rw [FrameHeldFits, toNat_frameLen_frameOf a n hp]
  exact Nat.add_le_add_right hp 20

theorem FrameHeldFits.effect {s t : State} (hs : FrameHeldFits s) (h : Effect s t) : FrameHeldFits t := by
  cases h with
  | frame a n _ _ _ hp => exact frameHeldFits_frameOf a n hp
  | pullPacket _ _ hp => exact frameHeldFits_frameOf s.ctl.offset.toNat s.cons.packetSize.toNat hp
  | sreset | hardReset => exact Nat.zero_le _
  | free r v =>
    obtain ⟨f, en, a0, a1, ip, fp, -, heq⟩ := freeWrite_eq r v s
    rw [heq]
    exact hs
  | _ => exact hs

/-! ### What one effect does to the signal -/

/-- The rates and the phase are kept, and a started session stays started. -/
structure PhaseKept (s t : State) : Prop where
  cons : t.cons = s.cons
  sampleIndex : t.session.sampleIndex = s.session.sampleIndex
  phaseAcc : t.session.phaseAcc = s.session.phaseAcc
  started : s.session.started = true → t.session.started = true

/-- What an effect can do to the rates, the phase, the open block and the length of the frame held (44_modulator.md
R155, R157). -/
inductive SignalEffect (s : State) : State → Prop
  | kept {t : State} (hk : PhaseKept s t) (hout : t.out = s.out) (hlen : t.frameLen = s.frameLen)
      (he : s.fsm = .error → t.fsm = .error) : SignalEffect s t
  | framed {t : State} (hk : PhaseKept s t) (hout : t.out = s.out) (hf : s.fsm.acceptsDirect = true)
      (hd : drained s = true) : SignalEffect s t
  | opened {t : State} (hk : PhaseKept s t) (hd : drained s = true) (hf : s.fsm ≠ .error) (hpos : t.out.pos = 0)
      (hsrc : t.out.src ≠ .none) (hframe : t.out.src = .framebuf → t.out.nsym ≤ 4 * t.frameLen.toNat) :
      SignalEffect s t
  | discarded {t : State} (hk : PhaseKept s t) (hout : t.out = noBlock) (hf : t.fsm = .error) : SignalEffect s t
  | popped (hd : drained s = false) (hn : s.session.sampleIndex ≠ 0xFFFFFFFFFFFFFFFF#64) :
      SignalEffect s (advanceSample s)
  | rates {t : State} (hs : s.session.started = false) (hsession : t.session = s.session) (hout : t.out = s.out)
      (hlen : t.frameLen = s.frameLen) (he : s.fsm = .error → t.fsm = .error) : SignalEffect s t
  | newSession {t : State} (x : Word) (hsession : t.session = ⟨x, 0, 0, false⟩) (hout : t.out = noBlock) :
      SignalEffect s t

/-- A frame moves neither the sample count nor the phase. -/
theorem phaseKept_frameOf {s : State} {a n : Nat} (hn : n ≤ s.cons.packetSize.toNat) :
    PhaseKept s (frameOf a n s) := by
  rw [frameOf_eq hn]
  exact ⟨rfl, rfl, rfl, fun h => by simp [h]⟩

theorem Effect.signalEffect {s t : State} (h : Effect s t) : SignalEffect s t := by
  have kept {u : State} (hsession : u.session = s.session) (hcons : u.cons = s.cons) : PhaseKept s u :=
    ⟨hcons, by rw [hsession], by rw [hsession], by rw [hsession]; exact id⟩
  cases h with
  | cfgFatal | frameFatal | indexFatal => exact .discarded (kept rfl rfl) rfl rfl
  | free r v =>
    obtain ⟨f, en, a0, a1, ip, fp, hf, heq⟩ := freeWrite_eq r v s
    rw [heq]
    refine .kept (kept rfl rfl) rfl rfl fun he => ?_
    obtain hf | ⟨ha, -⟩ := hf
    · exact hf.trans he
    · exact absurd he (Fsm.ne_error_of_acceptsDirect ha)
  | cons r v hl hs => exact .rates hs rfl rfl rfl (invalidate_fsm_error _).2
  | pace | image => exact .kept (kept rfl rfl) rfl rfl (invalidate_fsm_error _).2
  | pop y hd hn => exact .popped hd hn
  | sreset => exact .newSession _ rfl rfl
  | hardReset => exact .newSession _ rfl rfl
  | ready hf => exact .kept (kept rfl rfl) rfl rfl fun he => absurd he (Fsm.ne_error_of_acceptsUnit hf)
  | run hf => exact .kept (kept rfl rfl) rfl rfl fun he => absurd he (Fsm.ne_error_of_acceptsDirect hf)
  | pullIntro hf hd | pullPause hf hd | pullOutro hf hd =>
    exact .opened (kept rfl rfl) hd (by simp [hf]) rfl nofun nofun
  | pullPacket hf hd hp =>
    obtain ⟨hcons, hindex, hphase, hstarted⟩ := phaseKept_frameOf (s := s) (a := s.ctl.offset.toNat) le_rfl
    refine .opened ⟨hcons, hindex, hphase, hstarted⟩ hd (by simp [hf]) rfl nofun fun _ => ?_
    exact Nat.mul_le_mul_left 4 (toNat_frameLen_frameOf s.ctl.offset.toNat s.cons.packetSize.toNat hp).ge
  | scrld => exact .kept ⟨rfl, rfl, rfl, id⟩ rfl rfl id
  | scrb => exact .kept ⟨rfl, rfl, rfl, fun _ => rfl⟩ rfl rfl id
  | frame a n hf hd hn => exact .framed (phaseKept_frameOf hn) rfl hf hd
  | openSymbol y hf hd => exact .opened (kept rfl rfl) hd (Fsm.ne_error_of_acceptsDirect hf) rfl nofun nofun
  | openFrame hf hd =>
    exact .opened (kept rfl rfl) hd (Fsm.ne_error_of_acceptsDirect hf) rfl nofun fun _ => le_rfl
  | openSilence us hf hd => exact .opened (kept rfl rfl) hd (Fsm.ne_error_of_acceptsDirect hf) rfl nofun nofun
  | _ => exact .kept (kept rfl rfl) rfl rfl id

/-! ### The phase -/

theorem PhaseLocked.of_phaseKept {s t : State} (hs : PhaseLocked s) (hk : PhaseKept s t) : PhaseLocked t := by
  obtain ⟨hstart, hlock⟩ := hs
  refine ⟨fun ht => ?_, ?_⟩
  · rw [hk.sampleIndex, hk.phaseAcc]
    exact hstart (Bool.eq_false_iff.2 fun h => by simp [hk.started h] at ht)
  · rw [hk.cons, hk.sampleIndex, hk.phaseAcc]
    exact hlock

/-- At `N = k = 0` the phase is locked at every rate. -/
theorem phaseLocked_of_zero {s : State} (hn : s.session.sampleIndex = 0) (hk : s.session.phaseAcc = 0) :
    PhaseLocked s := ⟨fun _ => ⟨hn, hk⟩, fun _ => by simp [hn, hk]⟩

theorem toNat_phaseNext {c : Cons} (h : c.sampleRate ≠ 0) (k : Word) :
    (phaseNext c k).toNat = (k.toNat + c.carrierFreq.toNat) % c.sampleRate.toNat := by
  have hlt := Nat.mod_lt (k.toNat + c.carrierFreq.toNat) (toNat_pos_of_ne_zero h)
  rw [phaseNext, if_neg h, BitVec.toNat_ofNat, Nat.mod_eq_of_lt (hlt.trans c.sampleRate.isLt)]

/-- `N` below its last value does not wrap when it moves on (60_exceptions.md R234). -/
theorem toNat_sampleIndex_succ {s : State} (h : s.session.sampleIndex ≠ 0xFFFFFFFFFFFFFFFF#64) :
    (advanceSample s).session.sampleIndex.toNat = s.session.sampleIndex.toNat + 1 := by
  have hne : s.session.sampleIndex.toNat ≠ 2 ^ 64 - 1 := fun he => h (BitVec.eq_of_toNat_eq he)
  have hlt := s.session.sampleIndex.isLt
  rw [advanceSample_session, BitVec.toNat_add, BitVec.toNat_ofNat]
  omega

theorem PhaseLocked.advanceSample {s : State} (hs : PhaseLocked s)
    (hn : s.session.sampleIndex ≠ 0xFFFFFFFFFFFFFFFF#64) : PhaseLocked (advanceSample s) := by
  refine ⟨nofun, fun hsr => ?_⟩
  rw [advanceSample_cons] at hsr ⊢
  calc (phaseNext s.cons s.session.phaseAcc).toNat
      = (s.cons.carrierFreq.toNat * s.session.sampleIndex.toNat % s.cons.sampleRate.toNat + s.cons.carrierFreq.toNat) %
          s.cons.sampleRate.toNat := by rw [toNat_phaseNext hsr, hs.2 hsr]
    _ = s.cons.carrierFreq.toNat * (s.session.sampleIndex.toNat + 1) % s.cons.sampleRate.toNat := by
        rw [Nat.mod_add_mod, Nat.mul_succ]
    _ = _ := by rw [toNat_sampleIndex_succ hn]

theorem PhaseLocked.effect {s t : State} (hs : PhaseLocked s) (h : Effect s t) : PhaseLocked t := by
  cases h.signalEffect with
  | kept hk | framed hk | opened hk | discarded hk => exact hs.of_phaseKept hk
  | popped _ hn => exact hs.advanceSample hn
  | rates hstarted hsession =>
    obtain ⟨hn, hk⟩ := hs.1 hstarted
    exact phaseLocked_of_zero (by rw [hsession, hn]) (by rw [hsession, hk])
  | newSession x hsession => exact phaseLocked_of_zero (by rw [hsession]) (by rw [hsession])

/-- Settles O54: only a pop moves the phase, and the rates change only while `N = k = 0`. -/
theorem stepKeepsThePhaseLocked : Obligations.StepKeepsThePhaseLocked := fun _ _ hs h =>
  step_keeps (P := PhaseLocked) (fun _ _ _ hs => hs) (fun _ _ hs he => hs.effect he) hs h

/-! ### The open block -/

theorem blockBounded_of_pos_eq_zero {s : State} (h : s.out.pos = 0) : BlockBounded s :=
  ⟨by rw [h]; exact Nat.zero_le _, fun hne => absurd h hne⟩

theorem blockBacked_noBlock {s : State} (h : s.out = noBlock) : BlockBacked s := by
  rw [BlockBacked, h]
  exact ⟨fun _ => rfl, nofun⟩

/-- Before the session has started nothing of the block has been popped. -/
theorem BlockBounded.pos_eq_zero {s : State} (hs : BlockBounded s) (h : s.session.started = false) : s.out.pos = 0 := by
  by_contra hne
  simp [hs.2 hne] at h

theorem BlockBounded.effect {s t : State} (hs : BlockBounded s) (h : Effect s t) : BlockBounded t := by
  cases h.signalEffect with
  | kept hk hout | framed hk hout =>
    obtain ⟨hle, hstarted⟩ := hs
    rw [BlockBounded, hk.cons, hout]
    exact ⟨hle, fun hne => hk.started (hstarted hne)⟩
  | opened _ _ _ hpos => exact blockBounded_of_pos_eq_zero hpos
  | discarded _ hout => exact blockBounded_of_pos_eq_zero (by rw [hout]; rfl)
  | popped hd => exact ⟨not_drained_iff.1 hd, fun _ => rfl⟩
  | rates hstarted _ hout => exact blockBounded_of_pos_eq_zero (by rw [hout, hs.pos_eq_zero hstarted])
  | newSession _ _ hout => exact blockBounded_of_pos_eq_zero (by rw [hout]; rfl)

/-- A drained block with symbols has been popped, so the session has started: `S` is not 0 under a legal
configuration. -/
theorem BlockBounded.started_of_drained {s : State} (hs : BlockBounded s) (hlegal : LegalConfig s)
    (hd : drained s = true) (hnsym : s.out.nsym ≠ 0) : s.session.started = true := by
  refine hs.2 (Nat.ne_of_gt ?_)
  calc 0 < s.out.nsym * symbolSamples s.cons := Nat.mul_pos (Nat.pos_of_ne_zero hnsym) hlegal.symbolSamples_pos
    _ = blockSamples s.cons s.out := (blockSamples_eq _ _).symm
    _ ≤ s.out.pos := drained_iff.1 hd

theorem BlockBacked.effect {s t : State} (hs : BlockBacked s) (hbounded : BlockBounded s) (hvalid : ConfigValidated s)
    (h : Effect s t) : BlockBacked t := by
  obtain ⟨hnone, hframe⟩ := hs
  cases h.signalEffect with
  | kept hk hout hlen =>
    rw [BlockBacked, hk.cons, hout, hlen]
    exact ⟨hnone, fun hsrc => (hframe hsrc).imp_right (And.imp_left hk.started)⟩
  | framed hk hout hf hd =>
    rw [BlockBacked, hk.cons, hout]
    refine ⟨hnone, fun _ => ?_⟩
    by_cases hnsym : s.out.nsym = 0
    · exact .inl (by rw [hnsym]; exact Nat.zero_le _)
    · have hlegal := hvalid.legalConfig (Fsm.ne_idle_of_acceptsDirect hf) (Fsm.ne_error_of_acceptsDirect hf)
      exact .inr ⟨hk.started (hbounded.started_of_drained hlegal hd hnsym), drained_iff.1 hd⟩
  | opened _ _ _ _ hsrc hlen => exact ⟨fun h => absurd h hsrc, fun h => .inl (hlen h)⟩
  | discarded _ hout => exact blockBacked_noBlock hout
  | popped hd =>
    exact ⟨hnone, fun hsrc => (hframe hsrc).imp_right fun h => absurd h.2 (Nat.not_le.2 (not_drained_iff.1 hd))⟩
  | rates hstarted _ hout hlen =>
    rw [BlockBacked, hout, hlen]
    exact ⟨hnone, fun hsrc => .inl ((hframe hsrc).resolve_right fun h => by simp [hstarted] at h)⟩
  | newSession _ _ hout => exact blockBacked_noBlock hout

/-- The drained block ends at a multiple of `S`, and so does the session so far (44_modulator.md R161). -/
theorem SymbolAligned.of_drained {s : State} (hs : SymbolAligned s) (hbounded : BlockBounded s)
    (hd : drained s = true) (hf : s.fsm ≠ .error) : s.session.sampleIndex.toNat % symbolSamples s.cons = 0 := by
  have hpos : s.out.pos = s.out.nsym * symbolSamples s.cons :=
    (blockSamples_eq s.cons s.out) ▸ hbounded.1.antisymm (drained_iff.1 hd)
  rw [hs hf, hpos, Nat.mul_mod_left]

/-- At `N = 0` the next block starts at a multiple of every `S`. -/
theorem symbolAligned_of_zero {s : State} (hn : s.session.sampleIndex = 0) (hpos : s.out.pos = 0) :
    SymbolAligned s := fun _ => by rw [hn, hpos]; rfl

theorem SymbolAligned.effect {s t : State} (hs : SymbolAligned s) (hbounded : BlockBounded s) (hphase : PhaseLocked s)
    (h : Effect s t) : SymbolAligned t := by
  cases h.signalEffect with
  | kept hk hout _ he =>
    rw [SymbolAligned, hk.cons, hk.sampleIndex, hout]
    exact fun hf => hs fun hsf => hf (he hsf)
  | framed hk hout hf =>
    rw [SymbolAligned, hk.cons, hk.sampleIndex, hout]
    exact fun _ => hs (Fsm.ne_error_of_acceptsDirect hf)
  | opened hk hd hf hpos =>
    rw [SymbolAligned, hk.cons, hk.sampleIndex, hpos, Nat.zero_mod]
    exact fun _ => hs.of_drained hbounded hd hf
  | discarded _ _ hf => exact fun hne => absurd hf hne
  | popped _ hn =>
    intro hf
    rw [toNat_sampleIndex_succ hn]
    exact Nat.ModEq.add_right 1 (hs hf)
  | rates hstarted hsession hout =>
    exact symbolAligned_of_zero (by rw [hsession, (hphase.1 hstarted).1]) (by rw [hout, hbounded.pos_eq_zero hstarted])
  | newSession _ hsession hout => exact symbolAligned_of_zero (by rw [hsession]) (by rw [hout]; rfl)

/-! ### The controller's cursor -/

theorem cursorOnTrack_of_not_running {s : State} (h : s.fsm.running = false) : CursorOnTrack s := by
  have hne (f : Fsm) (hf : f.running = true) : s.fsm ≠ f := fun he => by simp [← he, h] at hf
  exact ⟨fun hr => absurd (h.symm.trans hr) (by decide), fun hf => absurd hf (hne .intro rfl),
    fun hf => absurd hf (hne .packet rfl), fun hf => absurd hf (hne .pause rfl), fun hf => absurd hf (hne .outro rfl)⟩

section
variable {s : State}

theorem cursorOnTrack_intro_iff (hf : s.fsm = .intro) :
    CursorOnTrack s ↔ (s.ctl.padlen.toNat = paddedLength s.pace ∧ s.ctl.offset.toNat ≤ s.ctl.padlen.toNat) ∧
      s.ctl.offset.toNat = 0 ∧ s.ctl.pktcnt.toNat = 0 := by
  simp [CursorOnTrack, hf, Fsm.running]

theorem cursorOnTrack_packet_iff (hf : s.fsm = .packet) :
    CursorOnTrack s ↔ (s.ctl.padlen.toNat = paddedLength s.pace ∧ s.ctl.offset.toNat ≤ s.ctl.padlen.toNat) ∧
      s.ctl.offset.toNat % s.pace.unitSize.toNat = s.ctl.pktcnt.toNat * s.cons.packetSize.toNat ∧
      s.ctl.pktcnt.toNat < s.pace.unitSize.toNat / s.cons.packetSize.toNat ∧
      s.ctl.offset.toNat < s.ctl.padlen.toNat := by
  simp [CursorOnTrack, hf, Fsm.running]

theorem cursorOnTrack_pause_iff (hf : s.fsm = .pause) :
    CursorOnTrack s ↔ (s.ctl.padlen.toNat = paddedLength s.pace ∧ s.ctl.offset.toNat ≤ s.ctl.padlen.toNat) ∧
      s.ctl.offset.toNat % s.pace.unitSize.toNat = 0 ∧
      s.ctl.pktcnt.toNat = s.pace.unitSize.toNat / s.cons.packetSize.toNat ∧
      s.pace.unitSize.toNat ≤ s.ctl.offset.toNat := by
  simp [CursorOnTrack, hf, Fsm.running]

theorem cursorOnTrack_outro_iff (hf : s.fsm = .outro) :
    CursorOnTrack s ↔ (s.ctl.padlen.toNat = paddedLength s.pace ∧ s.ctl.offset.toNat ≤ s.ctl.padlen.toNat) ∧
      s.ctl.offset.toNat = s.ctl.padlen.toNat ∧ s.ctl.pktcnt.toNat = 0 := by
  simp [CursorOnTrack, hf, Fsm.running]

end

/-- RUN puts the cursor at the start of the padded image (46_pacing.md R193). -/
theorem cursorOnTrack_run {s : State} (hlegal : LegalConfig s) :
    CursorOnTrack { s with ctl := ⟨0, 0, BitVec.ofNat 32 (paddedLength s.pace)⟩, fsm := .intro } := by
  rw [cursorOnTrack_intro_iff rfl, BitVec.toNat_ofNat, Nat.mod_eq_of_lt hlegal.padded_lt]
  exact ⟨⟨rfl, Nat.zero_le _⟩, rfl, rfl⟩

/-- A unit holds a packet. -/
theorem LegalConfig.packets_pos {s : State} (h : LegalConfig s) :
    0 < s.pace.unitSize.toNat / s.cons.packetSize.toNat := Nat.div_pos h.packet_le_unit h.packet_pos

theorem CursorOnTrack.pullIntro {s : State} (hs : CursorOnTrack s) (hf : s.fsm = .intro) (hlegal : LegalConfig s) :
    CursorOnTrack (pullIntro s) := by
  obtain ⟨hpl, hoff, hcnt⟩ := (cursorOnTrack_intro_iff hf).1 hs
  by_cases hzero : s.ctl.padlen = 0
  · have hend : s.ctl.offset.toNat = s.ctl.padlen.toNat := by rw [hoff, hzero]; rfl
    exact (cursorOnTrack_outro_iff (if_pos hzero)).2 ⟨hpl, hend, hcnt⟩
  · have hmod : s.ctl.offset.toNat % s.pace.unitSize.toNat = s.ctl.pktcnt.toNat * s.cons.packetSize.toNat := by
      rw [hoff, hcnt, Nat.zero_mod, Nat.zero_mul]
    exact (cursorOnTrack_packet_iff (if_neg hzero)).2
      ⟨hpl, hmod, hcnt ▸ hlegal.packets_pos, hoff ▸ toNat_pos_of_ne_zero hzero⟩

/-- The cursor behind a packet (46_pacing.md R196): with `cnt` packets of its unit before it, the packet at `off` ends
inside the padded image, at the end of the unit or behind `cnt + 1` packets of it. -/
theorem offset_after_packet {u ps pl off cnt : Nat} (hps : 0 < ps) (hdvd : ps ∣ u) (hu : u ∣ pl)
    (hmod : off % u = cnt * ps) (hcnt : cnt < u / ps) (hlt : off < pl) :
    off + ps ≤ pl ∧ (cnt + 1 = u / ps → (off + ps) % u = 0 ∧ u ≤ off + ps) ∧
      (cnt + 1 ≠ u / ps → (off + ps) % u = (cnt + 1) * ps ∧ off + ps < pl) := by
  obtain ⟨q, rfl⟩ := hu
  have hunit : u * (off / u) + u ≤ u * q := calc
    u * (off / u) + u = u * (off / u + 1) := (Nat.mul_succ _ _).symm
    _ ≤ u * q := Nat.mul_le_mul_left u (Nat.div_lt_of_lt_mul hlt)
  have hend : off + ps = u * (off / u) + (cnt + 1) * ps := by
    have hdiv := Nat.div_add_mod off u
    rw [Nat.succ_mul]
    omega
  have hpackets : u / ps * ps = u := Nat.div_mul_cancel hdvd
  have hle : (cnt + 1) * ps ≤ u := (Nat.mul_le_mul_right ps hcnt).trans_eq hpackets
  rw [hend]
  refine ⟨by omega, fun hlast => ?_, fun hmore => ?_⟩
  · rw [hlast, hpackets, Nat.mul_add_mod, Nat.mod_self]
    exact ⟨rfl, Nat.le_add_left _ _⟩
  · have hroom : (cnt + 1) * ps < u :=
      (Nat.mul_lt_mul_of_pos_right (lt_of_le_of_ne hcnt hmore) hps).trans_eq hpackets
    rw [Nat.mul_add_mod, Nat.mod_eq_of_lt hroom]
    exact ⟨rfl, by omega⟩

theorem CursorOnTrack.pullPacket {s : State} (hs : CursorOnTrack s) (hf : s.fsm = .packet) (hlegal : LegalConfig s) :
    CursorOnTrack (pullPacket s) := by
  obtain ⟨⟨hpl, -⟩, hmod, hcnt, hlt⟩ := (cursorOnTrack_packet_iff hf).1 hs
  have hunits : s.pace.unitSize.toNat ∣ s.ctl.padlen.toNat := hpl ▸ unitSize_dvd_paddedLength s.pace
  obtain ⟨hle, hlast, hmore⟩ :=
    offset_after_packet hlegal.packet_pos hlegal.packet_dvd_unit hunits hmod hcnt hlt
  have hoff : (s.ctl.offset + s.cons.packetSize).toNat = s.ctl.offset.toNat + s.cons.packetSize.toNat :=
    (BitVec.toNat_add _ _).trans (Nat.mod_eq_of_lt (hle.trans_lt s.ctl.padlen.isLt))
  have hcount : (s.ctl.pktcnt + 1).toNat = s.ctl.pktcnt.toNat + 1 :=
    (BitVec.toNat_add _ _).trans (Nat.mod_eq_of_lt
      (lt_of_le_of_lt hcnt ((Nat.div_le_self _ _).trans_lt s.pace.unitSize.isLt)))
  rw [← hcount, ← hoff] at hlast hmore
  rw [← hoff] at hle
  by_cases hfull : (s.ctl.pktcnt + 1).toNat = s.pace.unitSize.toNat / s.cons.packetSize.toNat
  · obtain ⟨hmod', hunit⟩ := hlast hfull
    exact (cursorOnTrack_pause_iff (if_pos hfull)).2 ⟨⟨hpl, hle⟩, hmod', hfull, hunit⟩
  · obtain ⟨hmod', hlt'⟩ := hmore hfull
    have hcnt' : (s.ctl.pktcnt + 1).toNat < s.pace.unitSize.toNat / s.cons.packetSize.toNat :=
      lt_of_le_of_ne (hcount.trans_le hcnt) hfull
    exact (cursorOnTrack_packet_iff (if_neg hfull)).2 ⟨⟨hpl, hle⟩, hmod', hcnt', hlt'⟩

theorem CursorOnTrack.pullPause {s : State} (hs : CursorOnTrack s) (hf : s.fsm = .pause) (hlegal : LegalConfig s) :
    CursorOnTrack (pullPause s) := by
  obtain ⟨⟨hpl, hle⟩, hmod, -, -⟩ := (cursorOnTrack_pause_iff hf).1 hs
  by_cases hend : s.ctl.offset = s.ctl.padlen
  · exact (cursorOnTrack_outro_iff (if_pos hend)).2 ⟨⟨hpl, hle⟩, congrArg BitVec.toNat hend, rfl⟩
  · have hlt : s.ctl.offset.toNat < s.ctl.padlen.toNat :=
      lt_of_le_of_ne hle fun heq => hend (BitVec.eq_of_toNat_eq heq)
    exact (cursorOnTrack_packet_iff (if_neg hend)).2
      ⟨⟨hpl, hle⟩, hmod.trans (Nat.zero_mul _).symm, hlegal.packets_pos, hlt⟩

theorem CursorOnTrack.effect {s t : State} (hs : CursorOnTrack s) (hvalid : ConfigValidated s) (h : Effect s t) :
    CursorOnTrack t := by
  cases h with
  | cfgFatal | frameFatal | indexFatal | sreset | hardReset | ready | pullOutro =>
    exact cursorOnTrack_of_not_running rfl
  | cons _ _ hl | pace _ _ hl | image _ hl =>
    exact cursorOnTrack_of_not_running (congrArg Fsm.running (invalidate_fsm_of_not_locked hl))
  | free r v =>
    obtain ⟨f, en, a0, a1, ip, fp, hf | ⟨-, hf⟩, heq⟩ := freeWrite_eq r v s
    · rw [heq, hf]
      exact hs
    · rw [heq, hf]
      exact cursorOnTrack_of_not_running rfl
  | run hf =>
    exact cursorOnTrack_run (hvalid.legalConfig (Fsm.ne_idle_of_acceptsDirect hf) (Fsm.ne_error_of_acceptsDirect hf))
  | pullIntro hf => exact hs.pullIntro hf (hvalid.legalConfig (by simp [hf]) (by simp [hf]))
  | pullPacket hf => exact hs.pullPacket hf (hvalid.legalConfig (by simp [hf]) (by simp [hf]))
  | pullPause hf => exact hs.pullPause hf (hvalid.legalConfig (by simp [hf]) (by simp [hf]))
  | _ => exact hs

/-! ### The whole invariant -/

theorem Inv.effect {s t : State} (hs : Inv s) (h : Effect s t) : Inv t where
  memories := hs.memories.effect h
  sectors := hs.sectors.effect h
  validated := hs.validated.effect h
  frameHeld := hs.frameHeld.effect h
  bounded := hs.bounded.effect h
  backed := hs.backed.effect hs.bounded hs.validated h
  phase := hs.phase.effect h
  aligned := hs.aligned.effect hs.bounded hs.phase h
  errors := hs.errors.effect h
  cursor := hs.cursor.effect hs.validated h

/-- The invariant says nothing of the host's lists. -/
theorem Inv.of_lists {s : State} (hs : Inv s) (p : Program) (r : List Word) :
    Inv { s with pending := p, replies := r } :=
  ⟨hs.memories, hs.sectors, hs.validated, hs.frameHeld, hs.bounded, hs.backed, hs.phase, hs.aligned, hs.errors,
    hs.cursor⟩

/-- Settles O57: every effect keeps each part of the invariant, the block and the cursor with the help of the others. -/
theorem stepKeepsTheInvariant : Obligations.StepKeepsTheInvariant := fun _ _ hs h =>
  step_keeps (P := Inv) (fun _ p r hs => hs.of_lists p r) (fun _ _ hs he => hs.effect he) hs h

end Sys2Proof.Machine
end

section
/-! SUPPORT. The modulator (44_modulator.md R155 to R162): the commands that open a block, one read of `OUT_DATA`, and
the words and the state of a row of them. -/

namespace Sys2Proof.Machine

/-! ### Opening a block -/

theorem pendIf_eq (c : Bool) (b : BitVec 4) (s : State) :
    pendIf c b s = { s with irq := { s.irq with pend := s.irq.pend ||| (if c then b else 0#4) } } := by
  cases c with
  | true => rfl
  | false => rw [if_neg Bool.false_ne_true, BitVec.or_zero]; rfl

/-- A block is opened with nothing popped, and pends `DRAINED` when it is empty (44_modulator.md R155). -/
theorem openBlock_eq (kind : OutKind) (src : OutSrc) (n : Nat) (y : Symbol) (s : State) :
    openBlock kind src n y s = { s with
      out := ⟨kind, src, n, y, 0⟩
      irq := { s.irq with pend := s.irq.pend ||| (if n * symbolSamples s.cons = 0 then 0b0001#4 else 0#4) } } := by
  rw [openBlock, pendIf_eq, blockSamples_eq]
  simp only [decide_eq_true_eq]
  rfl

/-- Settles O30: the state check passes, and the block is opened. -/
theorem modsModfAndBlankOpenTheirBlocks : Obligations.ModsModfAndBlankOpenTheirBlocks := by
  intro s hf hd opened
  have hcheck : (s.fsm.acceptsDirect && drained s) = true := by
    rw [acceptsDirect_iff.2 hf, drained_eq_true hd, Bool.and_self]
  refine ⟨fun y => ?mods, fun hlen => ?modf, fun us => ?blank⟩
  case mods => rw [exec, execMods, hcheck, whenAccepted_true, openBlock_eq]
  case modf =>
    have hvalid : frameValid s = true := decide_eq_true hlen
    rw [exec, execModf, hcheck, hvalid, Bool.and_self, whenAccepted_true, openBlock_eq]
  case blank => rw [exec, execBlank, hcheck, whenAccepted_true, openSilence, openBlock_eq, blankSymbols]

/-! ### One read of the output port -/

theorem perform_rd_outData (s : State) : perform (rd 0x0C8#12) s = readOutData s := perform_rd_reg (r := .outData) rfl

theorem perform_rd_outPeek (s : State) : perform (rd 0x0CC#12) s = readOutPeek s := perform_rd_reg (r := .outPeek) rfl

/-- The state after a read of `OUT_DATA` that pops a sample of symbol `y`. -/
def popped (y : Symbol) (s : State) : State := reply (sampleWord s y) (advanceSample s)

theorem readOutData_drained {s : State} (hd : drained s = true) :
    readOutData s = .next (reply 0 (raiseCmdErr .outUnderflow s)) := if_pos hd

theorem readOutData_overflow {s : State} (hd : drained s = false)
    (hn : s.session.sampleIndex = 0xFFFFFFFFFFFFFFFF#64) :
    readOutData s = .next (reply 0 (raiseFatal .indexOverflow 0 s)) := by
  rw [readOutData, hd, if_neg Bool.false_ne_true, if_pos hn]

theorem readOutData_sample {s : State} {y : Symbol} (hd : drained s = false)
    (hn : s.session.sampleIndex ≠ 0xFFFFFFFFFFFFFFFF#64) (hy : blockSym s s.out.pos = some y) :
    readOutData s = .next (popped y s) := by
  rw [readOutData, hd, if_neg Bool.false_ne_true, if_neg hn, hy, popped]

/-- With samples remaining and room for another index, a read that completes has popped the sample's symbol. -/
theorem exists_symbol_of_readOutData {s t : State} (hd : drained s = false)
    (hn : s.session.sampleIndex ≠ 0xFFFFFFFFFFFFFFFF#64) (h : readOutData s = .next t) :
    ∃ y, blockSym s s.out.pos = some y ∧ t = popped y s := by
  cases hy : blockSym s s.out.pos with
  | none =>
    rw [readOutData, hd, if_neg Bool.false_ne_true, if_neg hn, hy] at h
    cases h
  | some y =>
    rw [readOutData_sample hd hn hy] at h
    cases h
    exact ⟨y, rfl, rfl⟩

theorem readOutPeek_sample {s : State} {y : Symbol} (hd : drained s = false) (hy : blockSym s s.out.pos = some y) :
    readOutPeek s = .next (reply (0x80000000#32 ||| y.setWidth 32) s) := by
  rw [readOutPeek, hd, if_neg Bool.false_ne_true, hy]

theorem sampleIndex_ne_last {s : State} (h : s.session.sampleIndex.toNat < 2 ^ 64 - 1) :
    s.session.sampleIndex ≠ 0xFFFFFFFFFFFFFFFF#64 := fun he => by
  rw [he] at h
  exact absurd h (by decide)

/-- The symbol of a sample by the block's source (44_modulator.md R156). -/
theorem blockSym_eq_some {s : State} {j : Nat} {y : Symbol} (hzeros : s.out.src = .zeros → y = 0#2)
    (hsingle : s.out.src = .single → y = s.out.sym)
    (hframe : s.out.src = .framebuf →
      j / symbolSamples s.cons < 4 * s.frameLen.toNat ∧ y = symFb s (j / symbolSamples s.cons))
    (hnone : s.out.src ≠ .none) : blockSym s j = some y := by
  cases hsrc : s.out.src with
  | zeros => simp [blockSym, hsrc, hzeros hsrc]
  | single => simp [blockSym, hsrc, hsingle hsrc]
  | framebuf =>
    obtain ⟨hlt, rfl⟩ := hframe hsrc
    simp [blockSym, hsrc, hlt]
  | none => exact absurd hsrc hnone

/-- What a sample pop leaves (44_modulator.md R157). -/
theorem popped_eq {s : State} (y : Symbol) (hsr : s.cons.sampleRate ≠ 0) (hd : drained s = false) :
    popped y s = { s with
      session := { s.session with
        sampleIndex := s.session.sampleIndex + 1#64
        phaseAcc := BitVec.ofNat 32
          ((s.session.phaseAcc.toNat + s.cons.carrierFreq.toNat) % s.cons.sampleRate.toNat)
        started := true }
      out := { s.out with pos := s.out.pos + 1 }
      irq := { s.irq with pend := s.irq.pend ||| (if outRemain s = 1 then 0b0001#4 else 0#4) }
      replies := s.replies ++ [Config.render y s.session.phaseAcc s.cons.sampleRate] } := by
  have hlast : blockSamples s.cons s.out - (s.out.pos + 1) = 0 ↔ outRemain s = 1 := by
    have := not_drained_iff.1 hd
    rw [outRemain]
    omega
  rw [popped, advanceSample, pendIf_eq, phaseNext, if_neg hsr]
  simp only [decide_eq_true_eq, hlast]
  rfl

/-- Settles O47: the branches of the read in their order, and the symbol of each source. -/
theorem popProducesOneSample : Obligations.PopProducesOneSample := by
  intro s
  refine ⟨fun hremain => ?underflow, fun hremain hlast => ?overflow,
    fun hremain hlt hsr y hzeros hsingle hframe hnone => ?sample⟩
  case underflow =>
    rw [perform_rd_outData, readOutData_drained (drained_eq_true hremain)]
    rfl
  case overflow =>
    rw [perform_rd_outData, readOutData_overflow (drained_eq_false hremain) (BitVec.eq_of_toNat_eq hlast)]
    rfl
  case sample =>
    have hd := drained_eq_false hremain
    have hy : blockSym s s.out.pos = some y := blockSym_eq_some hzeros hsingle hframe hnone
    rw [perform_rd_outData, readOutData_sample hd (sampleIndex_ne_last hlt) hy, popped_eq y hsr hd,
      perform_rd_outPeek, readOutPeek_sample hd hy, reply]
    exact ⟨rfl, rfl⟩

/-! ### What a sample pop leaves, field by field -/

@[simp] theorem popped_cons (y : Symbol) (s : State) : (popped y s).cons = s.cons := rfl

@[simp] theorem popped_replies (y : Symbol) (s : State) :
    (popped y s).replies = s.replies ++ [sampleWord s y] := rfl

@[simp] theorem popped_phaseAcc (y : Symbol) (s : State) :
    (popped y s).session.phaseAcc = phaseNext s.cons s.session.phaseAcc := rfl

@[simp] theorem popped_scrState (y : Symbol) (s : State) :
    (popped y s).session.scrState = s.session.scrState := rfl

@[simp] theorem popped_pos (y : Symbol) (s : State) : (popped y s).out.pos = s.out.pos + 1 := rfl

/-- The block's symbols do not depend on how many have been popped (44_modulator.md R156). -/
@[simp] theorem blockSym_popped (y : Symbol) (s : State) (j : Nat) : blockSym (popped y s) j = blockSym s j := rfl

@[simp] theorem outRemain_popped (y : Symbol) (s : State) : outRemain (popped y s) = outRemain s - 1 :=
  Nat.sub_add_eq (blockSamples s.cons s.out) s.out.pos 1

/-- The last sample pends `DRAINED` (44_modulator.md R157). -/
theorem popped_pends_drained {s : State} (y : Symbol) (h : outRemain s = 1) :
    (popped y s).irq.pend.getLsbD 0 = true := by
  have hlast : blockSamples s.cons s.out - (s.out.pos + 1) = 0 := by rw [Nat.sub_add_eq]; exact Nat.sub_eq_of_eq_add h
  rw [popped, reply_irq, advanceSample_irq, hlast]
  simp [irqDrained]

/-! ### A row of reads -/

/-- `n` samples remain, and popping them does not pass the last index. -/
structure HasSamples (n : Nat) (s : State) : Prop where
  remain : n ≤ outRemain s
  index : s.session.sampleIndex.toNat + n < 2 ^ 64

section
variable {n : Nat} {s t : State}

theorem HasSamples.not_drained (h : HasSamples (n + 1) s) : drained s = false :=
  drained_eq_false (Nat.ne_of_gt (Nat.lt_of_lt_of_le n.succ_pos h.remain))

theorem HasSamples.index_ne_last (h : HasSamples (n + 1) s) : s.session.sampleIndex ≠ 0xFFFFFFFFFFFFFFFF#64 :=
  sampleIndex_ne_last (by have := h.index; omega)

theorem HasSamples.toNat_sampleIndex_popped (h : HasSamples (n + 1) s) (y : Symbol) :
    (popped y s).session.sampleIndex.toNat = s.session.sampleIndex.toNat + 1 :=
  toNat_sampleIndex_succ h.index_ne_last

theorem HasSamples.popped (h : HasSamples (n + 1) s) (y : Symbol) : HasSamples n (popped y s) where
  remain := by rw [outRemain_popped]; exact Nat.le_sub_of_add_le h.remain
  index := by rw [h.toNat_sampleIndex_popped]; have := h.index; omega

/-- A row of reads that completes starts with a pop and goes on from the state it leaves. -/
theorem runProgram_pops_succ (h : HasSamples (n + 1) s)
    (hrun : runProgram (List.replicate (n + 1) (rd 0x0C8#12)) s = .next t) :
    ∃ y, blockSym s s.out.pos = some y ∧
      runProgram (List.replicate n (rd 0x0C8#12)) (Machine.popped y s) = .next t := by
  rw [List.replicate_succ, runProgram, perform_rd_outData] at hrun
  cases hread : readOutData s with
  | next u =>
    obtain ⟨y, hy, rfl⟩ := exists_symbol_of_readOutData h.not_drained h.index_ne_last hread
    rw [hread] at hrun
    exact ⟨y, hy, hrun⟩
  | fault r => rw [hread] at hrun; cases hrun
  | refused r => rw [hread] at hrun; cases hrun

end

/-- What `n` sample pops leave: the words of the next `n` samples, and `N`, `k` and the block `n` samples on
(44_modulator.md R152, R157, R162). `DRAINED` pends behind the last sample, unless `n` is 0 and it did not before. -/
structure PoppedRow (s : State) (n : Nat) (t : State) : Prop where
  replies : t.replies = s.replies ++ blockWords s n
  sampleIndex : t.session.sampleIndex.toNat = s.session.sampleIndex.toNat + n
  phaseAcc : t.session.phaseAcc.toNat =
    (s.session.phaseAcc.toNat + n * s.cons.carrierFreq.toNat) % s.cons.sampleRate.toNat
  scrState : t.session.scrState = s.session.scrState
  remain : outRemain t = outRemain s - n
  drained : n = outRemain s → (n = 0 → s.irq.pend.getLsbD 0 = true) → t.irq.pend.getLsbD 0 = true

section
variable {s : State}

/-- The phase held is below the sample rate. -/
theorem PhaseLocked.phaseAcc_lt (hs : PhaseLocked s) (hsr : s.cons.sampleRate ≠ 0) :
    s.session.phaseAcc.toNat < s.cons.sampleRate.toNat := by
  rw [hs.2 hsr]
  exact Nat.mod_lt _ (toNat_pos_of_ne_zero hsr)

/-- The phase `i` samples behind the next one, before or after the next is popped. -/
theorem phase_popped_add (hsr : s.cons.sampleRate ≠ 0) (i : Nat) :
    ((phaseNext s.cons s.session.phaseAcc).toNat + i * s.cons.carrierFreq.toNat) % s.cons.sampleRate.toNat =
      (s.session.phaseAcc.toNat + (i + 1) * s.cons.carrierFreq.toNat) % s.cons.sampleRate.toNat := by
  rw [toNat_phaseNext hsr, Nat.mod_add_mod, Nat.succ_mul, Nat.add_right_comm, Nat.add_assoc]

/-- The next sample's word, then the words behind it. -/
theorem blockWords_succ {y : Symbol} (hy : blockSym s s.out.pos = some y) (hsr : s.cons.sampleRate ≠ 0)
    (hk : s.session.phaseAcc.toNat < s.cons.sampleRate.toNat) (n : Nat) :
    blockWords s (n + 1) = sampleWord s y :: blockWords (popped y s) n := by
  rw [blockWords, List.range_succ_eq_map, List.map_cons, List.map_map]
  congr 1
  · rw [Nat.add_zero, hy, Nat.zero_mul, Nat.add_zero, Nat.mod_eq_of_lt hk, BitVec.ofNat_toNat, BitVec.setWidth_eq]
    rfl
  · refine List.map_congr_left fun i _ => ?_
    rw [blockSym_popped, popped_pos, popped_cons, popped_phaseAcc, phase_popped_add hsr, Nat.add_right_comm]
    rfl

theorem PoppedRow.refl (hk : s.session.phaseAcc.toNat < s.cons.sampleRate.toNat) : PoppedRow s 0 s where
  replies := (List.append_nil _).symm
  sampleIndex := rfl
  phaseAcc := by rw [Nat.zero_mul, Nat.add_zero, Nat.mod_eq_of_lt hk]
  scrState := rfl
  remain := rfl
  drained _ h := h rfl

/-- A pop, then `n` more. -/
theorem PoppedRow.cons {t : State} {y : Symbol} {n : Nat} (hy : blockSym s s.out.pos = some y)
    (hsr : s.cons.sampleRate ≠ 0) (hk : s.session.phaseAcc.toNat < s.cons.sampleRate.toNat)
    (hrow : HasSamples (n + 1) s) (h : PoppedRow (popped y s) n t) : PoppedRow s (n + 1) t where
  replies := by rw [h.replies, popped_replies, blockWords_succ hy hsr hk, List.append_assoc, List.singleton_append]
  sampleIndex := by rw [h.sampleIndex, hrow.toNat_sampleIndex_popped, Nat.add_right_comm, Nat.add_assoc]
  phaseAcc := by rw [h.phaseAcc, popped_cons, popped_phaseAcc, phase_popped_add hsr]
  scrState := h.scrState
  remain := by rw [h.remain, outRemain_popped, Nat.sub_sub, Nat.add_comm]
  drained hall _ := h.drained (by rw [outRemain_popped, ← hall]; rfl) fun hn =>
    popped_pends_drained y (by rw [← hall, hn])

/-- A sample still to be popped has a symbol. -/
theorem BlockBacked.exists_blockSym (hs : BlockBacked s) (hd : Machine.drained s = false) :
    ∃ y, blockSym s s.out.pos = some y := by
  obtain ⟨hnone, hframe⟩ := hs
  have hpos : s.out.pos < s.out.nsym * symbolSamples s.cons := blockSamples_eq s.cons s.out ▸ not_drained_iff.1 hd
  cases hsrc : s.out.src with
  | none => rw [hnone hsrc, Nat.zero_mul] at hpos; exact absurd hpos (Nat.not_lt_zero _)
  | single => exact ⟨s.out.sym, by rw [blockSym, hsrc]⟩
  | zeros => exact ⟨0#2, by rw [blockSym, hsrc]⟩
  | framebuf =>
    have hlen : s.out.nsym ≤ 4 * s.frameLen.toNat :=
      (hframe hsrc).resolve_right fun h => Nat.not_le.2 (not_drained_iff.1 hd) h.2
    have hlt : s.out.pos / symbolSamples s.cons < 4 * s.frameLen.toNat :=
      (Nat.div_lt_of_lt_mul (Nat.mul_comm _ _ ▸ hpos)).trans_le hlen
    exact ⟨_, by rw [blockSym, hsrc]; exact if_pos hlt⟩

/-- A sample pop keeps the invariant. -/
theorem Inv.popped (hs : Inv s) {y : Symbol} (hd : Machine.drained s = false)
    (hn : s.session.sampleIndex ≠ 0xFFFFFFFFFFFFFFFF#64) (hy : blockSym s s.out.pos = some y) :
    Inv (popped y s) := (hs.effect (.pop y hd hn hy)).of_lists _ _

end

/-- From every state of the invariant the samples that remain can be popped, one word for each. -/
theorem exists_runProgram_pops : ∀ (n : Nat) {s : State}, Inv s → s.cons.sampleRate ≠ 0 → HasSamples n s →
    ∃ t, runProgram (List.replicate n (rd 0x0C8#12)) s = .next t ∧ PoppedRow s n t
  | 0, s, hs, hsr, _ => ⟨s, rfl, .refl (hs.phase.phaseAcc_lt hsr)⟩
  | n + 1, s, hs, hsr, hrow => by
    obtain ⟨y, hy⟩ := hs.backed.exists_blockSym hrow.not_drained
    have hpop := readOutData_sample hrow.not_drained hrow.index_ne_last hy
    obtain ⟨t, hrun, ht⟩ :=
      exists_runProgram_pops n (hs.popped hrow.not_drained hrow.index_ne_last hy) hsr (hrow.popped y)
    refine ⟨t, ?_, ht.cons hy hsr (hs.phase.phaseAcc_lt hsr) hrow⟩
    rw [List.replicate_succ, runProgram_cons ((perform_rd_outData s).trans hpop), hrun]

/-- Settles O48, by induction on the number of reads. -/
theorem drainingEmitsTheBlocksWaveform : Obligations.DrainingEmitsTheBlocksWaveform := by
  intro s n hs hsr hremain hindex
  obtain ⟨t, hrun, hreplies, hn, hk, hscr, hleft, hdrained⟩ := exists_runProgram_pops n hs hsr ⟨hremain, hindex⟩
  exact ⟨t, hrun, hreplies, hn, hk, hscr, hleft, fun hne hall => hdrained hall fun h0 => absurd h0 hne⟩

/-! ### Two machines -/

/-- Two machines with the same rates and phase whose next `n` samples have the same symbols (44_modulator.md R154). -/
structure SameSignal (n : Nat) (s t : State) : Prop where
  sampleRate : s.cons.sampleRate = t.cons.sampleRate
  carrierFreq : s.cons.carrierFreq = t.cons.carrierFreq
  phaseAcc : s.session.phaseAcc = t.session.phaseAcc
  symbols : ∀ j, j < n → blockSym s (s.out.pos + j) = blockSym t (t.out.pos + j)

section
variable {n : Nat} {s t : State}

/-- The next sample has one symbol and one word in both. -/
theorem SameSignal.sampleWord_eq (h : SameSignal n s t) (y : Symbol) : sampleWord s y = sampleWord t y := by
  rw [sampleWord, sampleWord, h.phaseAcc, h.sampleRate]

theorem SameSignal.popped (h : SameSignal (n + 1) s t) (y z : Symbol) :
    SameSignal n (popped y s) (popped z t) where
  sampleRate := h.sampleRate
  carrierFreq := h.carrierFreq
  phaseAcc := by simp only [popped_phaseAcc, phaseNext, h.sampleRate, h.carrierFreq, h.phaseAcc]
  symbols j hj := by
    have := h.symbols (j + 1) (Nat.succ_lt_succ hj)
    rwa [Nat.add_comm j, ← Nat.add_assoc, ← Nat.add_assoc] at this

end

/-- The same signal gives the same words and the same phase behind them. -/
theorem runProgram_pops_sameSignal : ∀ (n : Nat) {s t s' t' : State}, SameSignal n s t → HasSamples n s →
    HasSamples n t → runProgram (List.replicate n (rd 0x0C8#12)) s = .next s' →
    runProgram (List.replicate n (rd 0x0C8#12)) t = .next t' →
    ∃ ws, ws.length = n ∧ s'.replies = s.replies ++ ws ∧ t'.replies = t.replies ++ ws ∧
      s'.session.phaseAcc = t'.session.phaseAcc
  | 0, s, t, s', t', h, _, _, hs, ht => by
    cases hs
    cases ht
    exact ⟨[], rfl, (List.append_nil _).symm, (List.append_nil _).symm, h.phaseAcc⟩
  | n + 1, s, t, s', t', h, hrs, hrt, hs, ht => by
    obtain ⟨y, hy, hs⟩ := runProgram_pops_succ hrs hs
    obtain ⟨z, hz, ht⟩ := runProgram_pops_succ hrt ht
    obtain rfl : y = z := Option.some.inj (hy ▸ hz ▸ h.symbols 0 n.succ_pos)
    obtain ⟨ws, hlen, hws, hwt, hk⟩ :=
      runProgram_pops_sameSignal n (h.popped y y) (hrs.popped y) (hrt.popped y) hs ht
    refine ⟨sampleWord s y :: ws, congrArg (· + 1) hlen, ?_, ?_, hk⟩
    · rw [hws, popped_replies, List.append_assoc, List.singleton_append]
    · rw [hwt, popped_replies, List.append_assoc, List.singleton_append, h.sampleWord_eq]

/-- Settles O49, by induction on the number of reads. -/
theorem equalSymbolsAndPhaseGiveEqualWords : Obligations.EqualSymbolsAndPhaseGiveEqualWords := by
  intro s t s' t' n hsr hfc hk hs ht hsn htn hsym hruns hrunt
  exact runProgram_pops_sameSignal n ⟨hsr, hfc, hk, hsym⟩ ⟨hs, hsn⟩ ⟨ht, htn⟩ hruns hrunt

end Sys2Proof.Machine
end

section
/-! SUPPORT. The real signal: a sample is a carrier at the phase of its symbol (44_modulator.md R153), and the reduced
phase numerator gives the source's phase (R152). -/

namespace Sys2Proof.Machine

/-! ### The constellation -/

theorem symbol_cases (y : Symbol) : y = 3#2 ∨ y = 2#2 ∨ y = 0#2 ∨ y = 1#2 := by revert y; decide

/-- The baseband values of a symbol are the cosine and the sine of its phase (44_modulator.md R151, R153). -/
theorem baseband_eq_cos_sin (y : Symbol) :
    basebandEven y = Real.cos (symbolPhase y) ∧ basebandOdd y = Real.sin (symbolPhase y) := by
  have hlevel : 1 / Real.sqrt 2 = Real.sqrt 2 / 2 := by
    rw [div_eq_div_iff (by positivity) two_ne_zero, Real.mul_self_sqrt zero_le_two, one_mul]
  have hcos : Real.cos (Real.pi / 4) = 1 / Real.sqrt 2 := Real.cos_pi_div_four.trans hlevel.symm
  have hsin : Real.sin (Real.pi / 4) = 1 / Real.sqrt 2 := Real.sin_pi_div_four.trans hlevel.symm
  obtain rfl | rfl | rfl | rfl := symbol_cases y
  · exact ⟨hcos.symm, hsin.symm⟩
  · have hphase : symbolPhase 2#2 = Real.pi - Real.pi / 4 := by change 3 * Real.pi / 4 = _; ring
    rw [hphase, Real.cos_pi_sub, Real.sin_pi_sub, hcos, hsin, ← neg_div]
    exact ⟨rfl, rfl⟩
  · have hphase : symbolPhase 0#2 = Real.pi / 4 + Real.pi := by change 5 * Real.pi / 4 = _; ring
    rw [hphase, Real.cos_add_pi, Real.sin_add_pi, hcos, hsin, ← neg_div]
    exact ⟨rfl, rfl⟩
  · have hphase : symbolPhase 1#2 = 2 * Real.pi - Real.pi / 4 := by change 7 * Real.pi / 4 = _; ring
    rw [hphase, Real.cos_two_pi_sub, Real.sin_two_pi_sub, hcos, hsin, ← neg_div]
    exact ⟨rfl, rfl⟩

/-- A sample is a unit-amplitude carrier at the phase of its symbol (44_modulator.md R153). -/
theorem sampleValue_eq_sin (y : Symbol) (k sr : Nat) :
    sampleValue y k sr = Real.sin (phaseAngle k sr + symbolPhase y) := by
  obtain ⟨heven, hodd⟩ := baseband_eq_cos_sin y
  rw [sampleValue, heven, hodd, Real.sin_add]
  ring

/-- Settles O50, by the addition theorem of the sine; symbol 0 stands half a turn from symbol 3. -/
theorem sampleValueIsAUnitCarrier : Obligations.SampleValueIsAUnitCarrier := by
  intro y k sr
  have hvalue := sampleValue_eq_sin y k sr
  refine ⟨hvalue, rfl, rfl, rfl, rfl, hvalue ▸ Real.neg_one_le_sin _, hvalue ▸ Real.sin_le_one _, ?_⟩
  have hphase : phaseAngle k sr + symbolPhase 0#2 = phaseAngle k sr + Real.pi / 4 + Real.pi := by
    change _ + 5 * Real.pi / 4 = _
    ring
  rw [sampleValue_eq_sin, hphase, Real.sin_add_pi]

/-! ### The phase -/

/-- Reducing the numerator modulo `SR` takes away whole turns (44_modulator.md R152). -/
theorem phaseAngle_mod {m sr : Nat} (h : sr ≠ 0) :
    phaseAngle (m % sr) sr = 2 * Real.pi * (m / sr) - (m / sr : ℕ) * (2 * Real.pi) := by
  have hsr : (sr : ℝ) ≠ 0 := Nat.cast_ne_zero.2 h
  have hdiv : ((m % sr : ℕ) : ℝ) = m - sr * (m / sr : ℕ) := by
    rw [eq_sub_iff_add_eq, ← Nat.cast_mul, ← Nat.cast_add, Nat.mod_add_div]
  rw [phaseAngle, hdiv]
  field_simp

/-- Settles O51: sine and cosine do not see whole turns. -/
theorem reducedPhaseGivesTheSourcesValue : Obligations.ReducedPhaseGivesTheSourcesValue := by
  intro y fc n sr hsr
  have hangle : 2 * Real.pi * (((fc * n : ℕ) : ℝ) / sr) = 2 * Real.pi * fc * (n / sr) := by
    rw [Nat.cast_mul]
    ring
  rw [sampleValue, phaseAngle_mod hsr, Real.sin_sub_nat_mul_two_pi, Real.cos_sub_nat_mul_two_pi, hangle]

end Sys2Proof.Machine
end

section
/-! SUPPORT. The session and pacing commands (46_pacing.md R190 to R198): CFGCHK's verdict over the naturals, and what
RUN and PULL answer in the states that accept them. -/

namespace Sys2Proof.Machine

/-! ### NOP and SRESET -/

/-- Settles O17: neither command has a state check. -/
theorem nopAndSresetCompleteInEveryState : Obligations.NopAndSresetCompleteInEveryState := fun _ => ⟨rfl, rfl⟩

/-! ### CFGCHK -/

theorem elim_ite_some {α β : Type} {c : Prop} [Decidable c] (a : α) (o : Option α) (b : β) (f : α → β) :
    (if c then some a else o).elim b f = if c then f a else o.elim b f := by
  split <;> rfl

/-- CFGCHK in its accepted states: the verdict decides between `READY` and a fatal error (46_pacing.md R192). -/
theorem exec_cfgchk {s : State} (hf : s.fsm = .idle ∨ s.fsm = .ready ∨ s.fsm = .done) :
    exec .cfgchk s =
      (cfgError s).elim (.next { s with fsm := .ready }) fun p => .next (raiseFatal p.1 p.2 s) := by
  rw [exec, execCfgchk, acceptsUnit_iff.2 hf, whenAccepted_true]
  cases cfgError s <;> rfl

theorem strategy_reserved_iff (w : Word) : w >>> 1 ≠ 0 ↔ 2 ≤ w.toNat := by
  rw [ne_eq, BitVec.toNat_eq, BitVec.toNat_ushiftRight, Nat.shiftRight_eq_div_pow]
  change ¬w.toNat / 2 ^ 1 = 0 ↔ _
  omega

theorem sectorPaced_iff {p : Pace} (h : p.strategy.toNat < 2) : sectorPaced p = true ↔ p.strategy.toNat = 1 := by
  simp only [sectorPaced, BitVec.getLsbD, Nat.testBit_zero, decide_eq_true_eq]
  omega

theorem eq_zero_iff_toNat {w : Word} : w = 0 ↔ w.toNat = 0 := BitVec.toNat_eq

theorem periodSymbolBad_iff {c : Cons} (h : c.bitRate ≠ 0) : periodSymbolBad c = true ↔
    2 ^ 32 ≤ c.sampleRate.toNat / c.bitRate.toNat * 2 ∨
      (c.sampleRate.toNat / c.carrierFreq.toNat % (c.sampleRate.toNat / c.bitRate.toNat * 2) ≠ 0 ∧
        c.sampleRate.toNat / c.bitRate.toNat * 2 % (c.sampleRate.toNat / c.carrierFreq.toNat) ≠ 0) := by
  rw [periodSymbolBad, symbolSamples_eq h, carrierPeriod]
  simp only [Bool.or_eq_true, Bool.and_eq_true, decide_eq_true_eq, ge_iff_le]

/-- The five non-zero checks, over the naturals. -/
theorem zeroCheck_eq (s : State) : zeroCheck s =
    if s.cons.sampleRate.toNat = 0 then some 0x040#32
    else if s.cons.carrierFreq.toNat = 0 then some 0x044#32
    else if s.cons.bitRate.toNat = 0 then some 0x048#32
    else if s.cons.packetSize.toNat = 0 then some 0x04C#32
    else if s.pace.unitSize.toNat = 0 then some 0x064#32
    else none := by
  simp only [zeroCheck, eq_zero_iff_toNat]

/-- The checks of CFGCHK in their order, over the register values as naturals (46_pacing.md R192). -/
theorem cfgError_eq (s : State) :
    let sr := s.cons.sampleRate.toNat
    let fc := s.cons.carrierFreq.toNat
    let br := s.cons.bitRate.toNat
    let ps := s.cons.packetSize.toNat
    let u := s.pace.unitSize.toNat
    let sym := sr / br * 2
    let per := sr / fc
    let pl := paddedLength s.pace
    cfgError s =
      if 2 ≤ s.pace.strategy.toNat then some (.cfgStrategy, 0x060#32)
      else (zeroCheck s).elim
        (if sr % fc ≠ 0 then some (.cfgSrFc, 0x044#32)
        else if sr % br ≠ 0 then some (.cfgSrBr, 0x048#32)
        else if 2 ^ 32 ≤ sym ∨ (per % sym ≠ 0 ∧ sym % per ≠ 0) then some (.cfgPeriodSymbol, 0x09C#32)
        else if s.params.maxPacket < ps then some (.cfgPktCapacity, 0x04C#32)
        else if u < ps then some (.cfgPktGtUnit, 0x04C#32)
        else if u % ps ≠ 0 then some (.cfgUnitNotMult, 0x064#32)
        else if s.params.maxImage < s.pace.imageLen.toNat ∨ 2 ^ 32 ≤ pl then some (.cfgImageLen, 0x07C#32)
        else if s.pace.strategy.toNat = 1 ∧ s.params.maxSectors < s.pace.sectorCount.toNat then
          some (.cfgSectorCount, 0x080#32)
        else if s.pace.strategy.toNat = 1 ∧ 2 ^ 32 < s.pace.appStart.toNat + pl then some (.cfgAddrRange, 0x070#32)
        else none)
        fun off => some (.cfgZero, off) := by
  intro sr fc br ps u sym per pl
  rw [cfgError]
  simp only [strategy_reserved_iff]
  refine ite_congr rfl (fun _ => rfl) fun hstrategy => ?_
  cases hzero : zeroCheck s with
  | some off => rfl
  | none =>
    obtain ⟨-, -, hbr, -, -⟩ := zeroCheck_eq_none_iff.1 hzero
    simp only [periodSymbolBad_iff hbr, gt_iff_lt, sectorPaced_iff (not_le.1 hstrategy), Option.elim_none]
    by_cases hone : s.pace.strategy.toNat = 1
    · simp only [hone, true_and, if_true]
      rfl
    · simp only [hone, false_and, if_false]
      rfl

/-- Settles O19: the verdict's chain, answered with `READY` or the fatal error of the first failing check. -/
theorem cfgchkReportsTheFirstFailingCheck : Obligations.CfgchkReportsTheFirstFailingCheck := by
  intro s hf sr fc br ps u l sym per pl fatal
  rw [exec_cfgchk hf, cfgError_eq, zeroCheck_eq]
  simp only [elim_ite_some, Option.elim_none]
  rfl

/-- A legal configuration passes every check. -/
theorem LegalConfig.cfgError_eq_none {s : State} (h : LegalConfig s) : cfgError s = none := by
  have hzero : zeroCheck s = none := by
    simp only [zeroCheck_eq, h.rate_pos.ne', h.carrier_pos.ne', h.bit_pos.ne', h.packet_pos.ne', h.unit_pos.ne',
      if_false]
  rw [cfgError_eq, hzero]
  simp only [Option.elim_none, ite_some_eq_none_iff, and_true]
  refine ⟨Nat.not_le.2 h.strategy, not_not.2 (Nat.mod_eq_zero_of_dvd h.carrier_dvd),
    not_not.2 (Nat.mod_eq_zero_of_dvd h.bit_dvd), ?periods, Nat.not_lt.2 h.packet_fits,
    Nat.not_lt.2 h.packet_le_unit, not_not.2 (Nat.mod_eq_zero_of_dvd h.packet_dvd_unit), ?image,
    fun ⟨hone, hcount⟩ => Nat.not_lt.2 (h.sectors hone).1 hcount,
    fun ⟨hone, haddr⟩ => Nat.not_lt.2 (h.sectors hone).2 haddr⟩
  case periods =>
    rintro (hlarge | ⟨hperiod, hsymbol⟩)
    · exact Nat.not_le.2 h.symbol_lt hlarge
    · obtain hdvd | hdvd := h.periods
      · exact hperiod (Nat.mod_eq_zero_of_dvd hdvd)
      · exact hsymbol (Nat.mod_eq_zero_of_dvd hdvd)
  case image =>
    rintro (himage | hpadded)
    · exact Nat.not_lt.2 h.image_fits himage
    · exact Nat.not_le.2 h.padded_lt hpadded

/-- Settles O18: with no check failing the verdict is `READY`. -/
theorem cfgchkAcceptsALegalConfiguration : Obligations.CfgchkAcceptsALegalConfiguration := by
  intro s hf hlegal
  rw [exec_cfgchk hf, hlegal.cfgError_eq_none, Option.elim_none]

/-! ### RUN and PULL -/

section
variable {s : State}

theorem exec_run (hf : s.fsm = .ready ∨ s.fsm = .done) (hd : outRemain s = 0) :
    exec .run s = .next { s with ctl := ⟨0, 0, BitVec.ofNat 32 (paddedLength s.pace)⟩, fsm := .intro } := by
  rw [exec, execRun, acceptsDirect_iff.2 hf, drained_eq_true hd, Bool.and_self, whenAccepted_true]

theorem exec_pull_of_intro (hf : s.fsm = .intro) (hd : outRemain s = 0) : exec .pull s = .next (pullIntro s) := by
  rw [exec, execPull, running_iff.2 (.inl hf), drained_eq_true hd, Bool.and_self, whenAccepted_true]
  simp only [hf]

theorem exec_pull_of_pause (hf : s.fsm = .pause) (hd : outRemain s = 0) (hfit : sectorsFit s = true) :
    exec .pull s = .next (pullPause s) := by
  rw [exec, execPull, running_iff.2 (.inr (.inr (.inl hf))), drained_eq_true hd, Bool.and_self, whenAccepted_true]
  simp only [hf, hfit, if_true]

theorem exec_pull_of_outro (hf : s.fsm = .outro) (hd : outRemain s = 0) : exec .pull s = .next (pullOutro s) := by
  rw [exec, execPull, running_iff.2 (.inr (.inr (.inr hf))), drained_eq_true hd, Bool.and_self, whenAccepted_true]
  simp only [hf]

end

/-- A silence block, opened: `Blank(us)` symbols of zeros (45_silence.md R181, R183). -/
theorem openSilence_eq (kind : OutKind) (us : Nat) (s : State) :
    openSilence kind us s = { s with
      out := ⟨kind, .zeros, 4 * (us * s.cons.bitRate.toNat / 8000000), 0, 0⟩
      irq := { s.irq with pend := s.irq.pend |||
        (if 4 * (us * s.cons.bitRate.toNat / 8000000) * symbolSamples s.cons = 0 then 0b0001#4 else 0#4) } } := by
  rw [openSilence, openBlock_eq, blankSymbols]

/-- Settles O20: the padded length is R195's roundup. -/
theorem runStartsTheController : Obligations.RunStartsTheController := fun _ hf hd => exec_run hf hd

/-- Settles O21: the silence each PULL opens, and where it leaves the controller. -/
theorem pullOpensIntroAndOutroSilence : Obligations.PullOpensIntroAndOutroSilence := by
  intro s hd nsym empty
  refine ⟨fun hf => ?intro, fun hf => ?outro⟩
  case intro =>
    rw [exec_pull_of_intro hf hd, pullIntro, openSilence_eq]
    simp only [eq_zero_iff_toNat]
    rfl
  case outro =>
    rw [exec_pull_of_outro hf hd, pullOutro, openSilence_eq]
    rfl

theorem sectorsFit_iff {s : State} : sectorsFit s = true ↔
    (sectorPaced s.pace = true → s.pace.sectorCount.toNat ≤ s.params.maxSectors) := by
  rw [sectorsFit, Bool.or_eq_true, decide_eq_true_iff, Bool.not_eq_true', ← Bool.not_eq_true, imp_iff_not_or]

/-- The lookup of 46_pacing.md R197, over the entries in use: the chunk does not start below address 0. -/
theorem startsSector_iff {s : State} (h : s.pace.unitSize.toNat ≤ s.pace.appStart.toNat + s.ctl.offset.toNat) :
    startsSector s = true ↔ ∃ i : Fin 128, i.val < s.pace.sectorCount.toNat ∧
      s.pace.sect[i].toNat = s.pace.appStart.toNat + s.ctl.offset.toNat - s.pace.unitSize.toNat := by
  have hchunk (x : Word) : (x.toNat : Int) = chunkAddress s ↔
      x.toNat = s.pace.appStart.toNat + s.ctl.offset.toNat - s.pace.unitSize.toNat := by
    rw [chunkAddress]
    omega
  simp only [startsSector, List.any_eq_true, decide_eq_true_eq, hchunk, List.mem_take_iff_getElem, lt_min_iff,
    Vector.length_toList, Vector.getElem_toList]
  constructor
  · rintro ⟨_, ⟨i, hi, rfl⟩, hx⟩
    exact ⟨⟨i, hi.2⟩, hi.1, hx⟩
  · rintro ⟨i, hi, hx⟩
    exact ⟨_, ⟨i.val, ⟨hi, i.isLt⟩, rfl⟩, hx⟩

/-- Settles O23: the erase pause is the lookup's answer under sector pacing. -/
theorem pullPausesByExactSectorStart : Obligations.PullPausesByExactSectorStart := by
  intro s hf hd hchunk hcount
  have hfit : sectorsFit s = true := sectorsFit_iff.2 hcount
  have herase : erasePause s = true ↔ s.pace.strategy.getLsbD 0 = true ∧ ∃ i : Fin 128,
      i.val < s.pace.sectorCount.toNat ∧
        s.pace.sect[i].toNat = s.pace.appStart.toNat + s.ctl.offset.toNat - s.pace.unitSize.toNat := by
    rw [erasePause, Bool.and_eq_true, startsSector_iff hchunk, sectorPaced]
  refine ⟨if erasePause s then .pauseErase else .pauseShort,
    if erasePause s then s.pace.pauseEraseUs else s.pace.pauseShortUs, ?kind, ?state⟩
  case kind =>
    split
    case isTrue h => simp [herase.2 h]
    case isFalse h => simp [mt herase.1 h]
  case state =>
    rw [exec_pull_of_pause hf hd hfit, pullPause, openSilence_eq, apply_ite BitVec.toNat]

/-- Settles O22: the frame of the packet at the cursor, then its block and the cursor's move. -/
theorem pullEmitsThePacketAtTheCursor : Obligations.PullEmitsThePacketAtTheCursor := by
  intro s hf hd hp hfb ps plain sent
  have hplain : paddedPayload s.ctl.offset.toNat ps s = plain := by
    rw [paddedPayload, Nat.sub_self, List.replicate_zero, List.append_nil]
    rfl
  have hsent : sentPayload s.ctl.offset.toNat ps s = sent := by rw [sentPayload, hplain]
  have hlen : sent.length = ps := by rw [← hsent, sentPayload_length le_rfl]
  have hheld : HoldsFrame (frameOf s.ctl.offset.toNat ps s).fb sent := hsent ▸ holdsFrame_frameOf le_rfl hp hfb
  have hbeyond (i : Nat) (hi : ps + 20 ≤ i) := read_frameOf_beyond (s := s) (a := s.ctl.offset.toNat) le_rfl hi
  have hframe := frameOf_eq (s := s) (a := s.ctl.offset.toNat) le_rfl
  generalize (frameOf s.ctl.offset.toNat ps s).fb = m at hheld hbeyond hframe
  refine ⟨m, ?state, fun i hi => hheld i (hlen ▸ hi), hbeyond⟩
  case state =>
    rw [exec_pull_of_packet hf hd hp, pullPacket, hframe, openBlock_eq, hplain, hsent]
    rfl

end Sys2Proof.Machine
end

section
/-! SUPPORT. The blocks of a run (46_pacing.md R199): how many are left in each controller state, and one fewer after
each PULL. -/

namespace Sys2Proof.Machine

/-! ### The blocks left, by the controller state -/

section
variable {s : State}

theorem pullsLeft_of_intro (hf : s.fsm = .intro) : pullsLeft s =
    2 + (s.ctl.padlen.toNat - s.ctl.offset.toNat) / s.cons.packetSize.toNat +
      (s.ctl.padlen.toNat - s.ctl.offset.toNat) / s.pace.unitSize.toNat := by simp only [pullsLeft, hf]

theorem pullsLeft_of_packet (hf : s.fsm = .packet) : pullsLeft s =
    1 + (s.ctl.padlen.toNat - s.ctl.offset.toNat) / s.cons.packetSize.toNat +
      (s.ctl.padlen.toNat - s.ctl.offset.toNat + s.pace.unitSize.toNat - 1) / s.pace.unitSize.toNat := by
  simp only [pullsLeft, hf]

theorem pullsLeft_of_pause (hf : s.fsm = .pause) : pullsLeft s =
    2 + (s.ctl.padlen.toNat - s.ctl.offset.toNat) / s.cons.packetSize.toNat +
      (s.ctl.padlen.toNat - s.ctl.offset.toNat) / s.pace.unitSize.toNat := by simp only [pullsLeft, hf]

theorem pullsLeft_of_outro (hf : s.fsm = .outro) : pullsLeft s = 1 := by simp only [pullsLeft, hf]

/-- No block is left exactly outside a run. -/
theorem pullsLeft_eq_zero_iff : pullsLeft s = 0 ↔ s.fsm.running = false := by
  cases hf : s.fsm <;> simp [pullsLeft, hf, Fsm.running]

/-- Where a PULL leaves the controller: `DONE` is the end of the run. -/
theorem done_iff_pullsLeft_eq_zero (h : s.fsm.running = true ∨ s.fsm = .done) : s.fsm = .done ↔ pullsLeft s = 0 := by
  rw [pullsLeft_eq_zero_iff]
  obtain hrun | hdone := h
  · exact iff_of_false (fun hdone => by simp [hdone, Fsm.running] at hrun) (by simp [hrun])
  · exact iff_of_true hdone (by rw [hdone]; rfl)

end

theorem running_ite {c : Prop} [Decidable c] {f g : Fsm} (hf : f.running = true) (hg : g.running = true) :
    (if c then f else g).running = true := by
  split
  · exact hf
  · exact hg

/-! ### Counting packets and units -/

/-- The units of `u * q` bytes that do not lie whole before `off`. -/
theorem ceil_units_left {u q off : Nat} (hu : 0 < u) (hle : off ≤ u * q) :
    (u * q - off + u - 1) / u = q - off / u := by
  obtain ⟨d, rfl⟩ := Nat.exists_eq_add_of_le (Nat.div_le_of_le_mul hle)
  have hmod := Nat.mod_lt off hu
  have hrest : u * (off / u + d) - off + u - 1 = u * d + (u - 1 - off % u) := by
    have hdiv := Nat.div_add_mod off u
    rw [Nat.mul_add] at hle ⊢
    omega
  rw [hrest, Nat.mul_add_div hu, Nat.div_eq_of_lt (by omega), Nat.add_zero, Nat.add_sub_cancel_left]

/-- A whole number of units needs no rounding. -/
theorem ceil_units_of_dvd {u n : Nat} (hu : 0 < u) (h : u ∣ n) : (n + u - 1) / u = n / u := by
  obtain ⟨q, rfl⟩ := h
  rw [Nat.mul_div_cancel_left q hu]
  simpa using ceil_units_left (off := 0) hu (Nat.zero_le (u * q))

/-- The units left behind a packet (46_pacing.md R196, R199): one fewer at the end of the unit, else as many as before
it. -/
theorem units_left_after_packet {u ps pl off cnt : Nat} (hps : 0 < ps) (hdvd : ps ∣ u) (hu : u ∣ pl)
    (hmod : off % u = cnt * ps) (hcnt : cnt < u / ps) (hlt : off < pl) :
    (cnt + 1 = u / ps → (pl - off + u - 1) / u = (pl - (off + ps)) / u + 1) ∧
      (cnt + 1 ≠ u / ps → (pl - off + u - 1) / u = (pl - (off + ps) + u - 1) / u) := by
  obtain ⟨hle, hlast, hmore⟩ := offset_after_packet hps hdvd hu hmod hcnt hlt
  have hpackets : u / ps * ps = u := Nat.div_mul_cancel hdvd
  have hpos : 0 < u := Nat.pos_of_ne_zero fun h => by simp [h] at hcnt
  have hbefore := Nat.div_add_mod off u
  have hafter := Nat.div_add_mod (off + ps) u
  refine ⟨fun hend => ?_, fun hne => ?_⟩
  · obtain ⟨hzero, -⟩ := hlast hend
    have hunit : (off + ps) / u = off / u + 1 := by
      apply Nat.eq_of_mul_eq_mul_left hpos
      rw [← hend, Nat.succ_mul] at hpackets
      rw [Nat.mul_succ]
      omega
    have hrest : u ∣ pl - (off + ps) := Nat.dvd_sub hu (Nat.dvd_of_mod_eq_zero hzero)
    obtain ⟨q, rfl⟩ := hu
    have hq : (off + ps) / u ≤ q := Nat.div_le_of_le_mul hle
    rw [← ceil_units_of_dvd hpos hrest, ceil_units_left hpos hle, ceil_units_left hpos hlt.le]
    omega
  · obtain ⟨hinside, -⟩ := hmore hne
    have hunit : (off + ps) / u = off / u := by
      apply Nat.eq_of_mul_eq_mul_left hpos
      rw [Nat.succ_mul] at hinside
      omega
    obtain ⟨q, rfl⟩ := hu
    rw [ceil_units_left hpos hle, ceil_units_left hpos hlt.le, hunit]

/-! ### One block fewer -/

section
variable {s : State}

@[simp] theorem pullIntro_ctl : (pullIntro s).ctl = s.ctl := rfl
@[simp] theorem pullIntro_cons : (pullIntro s).cons = s.cons := rfl
@[simp] theorem pullIntro_pace : (pullIntro s).pace = s.pace := rfl
@[simp] theorem pullPacket_offset : (pullPacket s).ctl.offset = s.ctl.offset + s.cons.packetSize := rfl
@[simp] theorem pullPacket_padlen : (pullPacket s).ctl.padlen = s.ctl.padlen := rfl
@[simp] theorem pullPacket_cons : (pullPacket s).cons = s.cons := rfl
@[simp] theorem pullPacket_pace : (pullPacket s).pace = s.pace := rfl
@[simp] theorem pullPause_offset : (pullPause s).ctl.offset = s.ctl.offset := rfl
@[simp] theorem pullPause_padlen : (pullPause s).ctl.padlen = s.ctl.padlen := rfl
@[simp] theorem pullPause_cons : (pullPause s).cons = s.cons := rfl
@[simp] theorem pullPause_pace : (pullPause s).pace = s.pace := rfl

/-- A run starts with the blocks of 46_pacing.md R199. -/
theorem pullsLeft_run (hlegal : LegalConfig s) :
    pullsLeft { s with ctl := ⟨0, 0, BitVec.ofNat 32 (paddedLength s.pace)⟩, fsm := .intro } =
      2 + paddedLength s.pace / s.cons.packetSize.toNat + paddedLength s.pace / s.pace.unitSize.toNat := by
  rw [pullsLeft_of_intro rfl, BitVec.toNat_ofNat, Nat.mod_eq_of_lt hlegal.padded_lt]
  rfl

theorem CursorOnTrack.unitSize_dvd_padlen (hs : CursorOnTrack s) (hr : s.fsm.running = true) :
    s.pace.unitSize.toNat ∣ s.ctl.padlen.toNat := by
  obtain ⟨hpl, -⟩ := hs.1 hr
  exact hpl ▸ unitSize_dvd_paddedLength s.pace

theorem CursorOnTrack.pullsLeft_pullIntro (hs : CursorOnTrack s) (hf : s.fsm = .intro) (hlegal : LegalConfig s) :
    pullsLeft s = pullsLeft (Machine.pullIntro s) + 1 := by
  have hunits := hs.unitSize_dvd_padlen (by rw [hf]; rfl)
  obtain ⟨-, hoff, -⟩ := (cursorOnTrack_intro_iff hf).1 hs
  rw [pullsLeft_of_intro hf, hoff, Nat.sub_zero]
  by_cases hzero : s.ctl.padlen = 0
  · rw [pullsLeft_of_outro (if_pos hzero), hzero]
    simp
  · rw [pullsLeft_of_packet (if_neg hzero), pullIntro_ctl, pullIntro_cons, pullIntro_pace, hoff, Nat.sub_zero,
      ceil_units_of_dvd hlegal.unit_pos hunits]
    omega

theorem CursorOnTrack.pullsLeft_pullPacket (hs : CursorOnTrack s) (hf : s.fsm = .packet) (hlegal : LegalConfig s) :
    pullsLeft s = pullsLeft (Machine.pullPacket s) + 1 := by
  have hunits := hs.unitSize_dvd_padlen (by rw [hf]; rfl)
  obtain ⟨-, hmod, hcnt, hlt⟩ := (cursorOnTrack_packet_iff hf).1 hs
  obtain ⟨hle, -, -⟩ := offset_after_packet hlegal.packet_pos hlegal.packet_dvd_unit hunits hmod hcnt hlt
  obtain ⟨hlast, hmore⟩ := units_left_after_packet hlegal.packet_pos hlegal.packet_dvd_unit hunits hmod hcnt hlt
  have hoff : (s.ctl.offset + s.cons.packetSize).toNat = s.ctl.offset.toNat + s.cons.packetSize.toNat :=
    BitVec.toNat_add_of_lt (hle.trans_lt s.ctl.padlen.isLt)
  have hcount : (s.ctl.pktcnt + 1).toNat = s.ctl.pktcnt.toNat + 1 :=
    BitVec.toNat_add_of_lt (lt_of_le_of_lt hcnt ((Nat.div_le_self _ _).trans_lt s.pace.unitSize.isLt))
  have hpackets : (s.ctl.padlen.toNat - s.ctl.offset.toNat) / s.cons.packetSize.toNat =
      (s.ctl.padlen.toNat - (s.ctl.offset.toNat + s.cons.packetSize.toNat)) / s.cons.packetSize.toNat + 1 := by
    rw [Nat.div_eq_sub_div hlegal.packet_pos (by omega), Nat.sub_sub]
  rw [← hcount] at hlast hmore
  rw [pullsLeft_of_packet hf, hpackets]
  by_cases hfull : (s.ctl.pktcnt + 1).toNat = s.pace.unitSize.toNat / s.cons.packetSize.toNat
  · rw [pullsLeft_of_pause (if_pos hfull), pullPacket_offset, pullPacket_padlen, pullPacket_cons, pullPacket_pace,
      hoff, hlast hfull]
    omega
  · rw [pullsLeft_of_packet (if_neg hfull), pullPacket_offset, pullPacket_padlen, pullPacket_cons, pullPacket_pace,
      hoff, hmore hfull]
    omega

theorem CursorOnTrack.pullsLeft_pullPause (hs : CursorOnTrack s) (hf : s.fsm = .pause) (hlegal : LegalConfig s) :
    pullsLeft s = pullsLeft (Machine.pullPause s) + 1 := by
  have hunits := hs.unitSize_dvd_padlen (by rw [hf]; rfl)
  obtain ⟨-, hmod, -, -⟩ := (cursorOnTrack_pause_iff hf).1 hs
  rw [pullsLeft_of_pause hf]
  by_cases hend : s.ctl.offset = s.ctl.padlen
  · rw [pullsLeft_of_outro (if_pos hend), hend]
    simp
  · rw [pullsLeft_of_packet (if_neg hend), pullPause_offset, pullPause_padlen, pullPause_cons, pullPause_pace,
      ceil_units_of_dvd hlegal.unit_pos (Nat.dvd_sub hunits (Nat.dvd_of_mod_eq_zero hmod))]
    omega

end

/-- The sector lookup of a legal configuration stays inside the table (46_pacing.md R192). -/
theorem LegalConfig.sectorsFit_eq_true {s : State} (h : LegalConfig s) : sectorsFit s = true :=
  sectorsFit_iff.2 fun hpaced => (h.sectors ((sectorPaced_iff h.strategy).1 hpaced)).1

/-- Settles O59: RUN puts the cursor at the start, and each state's PULL leaves one block fewer. -/
theorem everyPullLeavesOneBlockFewer : Obligations.EveryPullLeavesOneBlockFewer := by
  refine ⟨fun s hs hf hd => ?run, fun s hs hr hd => ?pull⟩
  case run =>
    have hdirect := acceptsDirect_iff.2 hf
    have hlegal := hs.validated.legalConfig (Fsm.ne_idle_of_acceptsDirect hdirect)
      (Fsm.ne_error_of_acceptsDirect hdirect)
    exact ⟨_, exec_run hf hd, rfl, pullsLeft_run hlegal⟩
  case pull =>
    have hlegal := hs.validated.legalConfig (fun hi => by simp [hi, Fsm.running] at hr)
      (fun he => by simp [he, Fsm.running] at hr)
    obtain hf | hf | hf | hf := running_iff.1 hr
    · exact ⟨_, exec_pull_of_intro hf hd, hs.cursor.pullsLeft_pullIntro hf hlegal, nofun, rfl,
        done_iff_pullsLeft_eq_zero (.inl (running_ite rfl rfl))⟩
    · exact ⟨_, exec_pull_of_packet hf hd hlegal.packet_fits, hs.cursor.pullsLeft_pullPacket hf hlegal, nofun, rfl,
        done_iff_pullsLeft_eq_zero (.inl (running_ite rfl rfl))⟩
    · refine ⟨_, exec_pull_of_pause hf hd hlegal.sectorsFit_eq_true, hs.cursor.pullsLeft_pullPause hf hlegal, ?_, rfl,
        done_iff_pullsLeft_eq_zero (.inl (running_ite rfl rfl))⟩
      change (if erasePause s then OutKind.pauseErase else .pauseShort) ≠ .none
      split <;> decide
    · exact ⟨_, exec_pull_of_outro hf hd, pullsLeft_of_outro hf, nofun, rfl, done_iff_pullsLeft_eq_zero (.inr rfl)⟩

end Sys2Proof.Machine
end

section
/-! SUPPORT. Two machines in the same session (46_pacing.md R203): what the relation makes equal, and the relation
through each named operation, each command but CRC and FRAME, and each read of `OUT_DATA`. -/

namespace Sys2Proof.Machine

/-! ### What the relation makes equal -/

section
variable {s t : State}

theorem imageBytes_congr (h : SameInputs s t) (a n : Nat) : imageBytes s a n = imageBytes t a n := by
  simp only [imageBytes, imageByte, h.params, h.pace, h.image]

namespace SameSession

theorem drained_eq (h : SameSession s t) : drained s = drained t := by
  rw [drained, drained, outRemain, outRemain, h.cons, h.out]

theorem accepts_eq (h : SameSession s t) (i : Instr) : accepts s i = accepts t i := by
  have hvalid : frameValid s = frameValid t := by rw [frameValid, frameValid, h.frameLen]
  cases i <;> simp only [accepts, h.fsm, h.drained_eq, hvalid]

theorem cfgError_eq (h : SameSession s t) : cfgError s = cfgError t := cfgError_congr h.params h.cons h.pace

theorem paddedPayload_eq (h : SameSession s t) (a n : Nat) : paddedPayload a n s = paddedPayload a n t := by
  rw [paddedPayload, paddedPayload, imageBytes_congr h.toSameInputs, h.cons]

theorem sentPayload_eq (h : SameSession s t) (a n : Nat) : sentPayload a n s = sentPayload a n t := by
  rw [sentPayload, sentPayload, h.paddedPayload_eq, h.cons, h.session]

theorem frameSession_eq (h : SameSession s t) (a n : Nat) :
    (frameSession a n s).session = (frameSession a n t).session := by
  simp only [frameSession_session, afterScramble, h.paddedPayload_eq, h.cons, h.session]

theorem erasePause_eq (h : SameSession s t) : erasePause s = erasePause t := by
  rw [erasePause, erasePause, startsSector, startsSector, chunkAddress, chunkAddress, h.pace, h.ctl]

/-- The symbol of a sample, from the part of the frame buffer the relation fixes (43_mapper.md R142). -/
theorem blockSym_eq (h : SameSession s t) (j : Nat) : blockSym s j = blockSym t j := by
  cases hsrc : t.out.src with
  | framebuf =>
    simp only [blockSym, h.out, hsrc, h.cons, h.frameLen]
    split
    · rw [symFb, symFb, h.frame _ (by rw [h.frameLen]; omega)]
    · rfl
  | _ => simp only [blockSym, h.out, hsrc]

/-! ### The relation through the operations -/

theorem raiseCmdErr (h : SameSession s t) (e : CmdErr) : SameSession (raiseCmdErr e s) (raiseCmdErr e t) :=
  { h with }

theorem raiseFatal (h : SameSession s t) (e : FatalErr) (w : Word) :
    SameSession (raiseFatal e w s) (raiseFatal e w t) :=
  { h with fsm := rfl, out := rfl, errCode := rfl, errInfo := rfl }

theorem reply (h : SameSession s t) (w : Word) : SameSession (reply w s) (reply w t) := { h with }

theorem openBlock (h : SameSession s t) (kind : OutKind) (src : OutSrc) (n : Nat) (y : Symbol) :
    SameSession (openBlock kind src n y s) (openBlock kind src n y t) := { h with out := rfl }

theorem openSilence (h : SameSession s t) (kind : OutKind) (us : Nat) :
    SameSession (openSilence kind us s) (openSilence kind us t) :=
  { h with out := by rw [openSilence_out, openSilence_out, h.cons] }

theorem advanceSample (h : SameSession s t) : SameSession (advanceSample s) (advanceSample t) :=
  { h with
    session := by rw [advanceSample_session, advanceSample_session, h.session, h.cons]
    out := by rw [advanceSample_out, advanceSample_out, h.out] }

theorem moveTo (h : SameSession s t) (c : Ctl) (f : Fsm) :
    SameSession { s with ctl := c, fsm := f } { t with ctl := c, fsm := f } := { h with ctl := rfl, fsm := rfl }

/-- The frame just made is the same one: both buffers hold it, and `FRAME_LEN` ends at it. -/
theorem frameOf (h : SameSession s t) {a n : Nat} (hn : n ≤ s.cons.packetSize.toNat)
    (hp : s.cons.packetSize.toNat ≤ s.params.maxPacket) (hs : s.fb.wf (s.params.maxPacket + 20) = true)
    (ht : t.fb.wf (t.params.maxPacket + 20) = true) : SameSession (frameOf a n s) (frameOf a n t) :=
  { h with
    session := h.frameSession_eq a n
    result := by rw [frameOf_result, frameOf_result, h.sentPayload_eq]
    frameLen := by rw [frameOf_frameLen, frameOf_frameLen, h.cons]
    frame := by
      intro i hi
      rw [toNat_frameLen_frameOf a n hp] at hi
      have hheld := holdsFrame_frameOf (a := a) (h.cons ▸ hn) (h.cons ▸ h.params ▸ hp) ht
      rw [← h.sentPayload_eq] at hheld
      have hlen := sentPayload_length (a := a) hn
      rw [holdsFrame_frameOf hn hp hs i (by omega), hheld i (by omega)] }

theorem pullIntro (h : SameSession s t) : SameSession (pullIntro s) (pullIntro t) := by
  have hopened := h.openSilence .intro s.pace.introUs.toNat
  rw [Machine.pullIntro, Machine.pullIntro, ← h.pace, ← h.ctl]
  exact { hopened with fsm := rfl }

theorem pullPause (h : SameSession s t) : SameSession (pullPause s) (pullPause t) := by
  have hopened := h.openSilence (if erasePause s then .pauseErase else .pauseShort)
    (if erasePause s then s.pace.pauseEraseUs.toNat else s.pace.pauseShortUs.toNat)
  rw [Machine.pullPause, Machine.pullPause, ← h.erasePause_eq, ← h.pace, ← h.ctl]
  exact hopened.moveTo _ _

theorem pullOutro (h : SameSession s t) : SameSession (pullOutro s) (pullOutro t) := by
  have hopened := h.openSilence .outro s.pace.outroUs.toNat
  rw [Machine.pullOutro, Machine.pullOutro, ← h.pace]
  exact { hopened with fsm := rfl }

theorem pullPacket (h : SameSession s t) (hp : s.cons.packetSize.toNat ≤ s.params.maxPacket)
    (hs : MemoriesCanonical s) (ht : MemoriesCanonical t) : SameSession (pullPacket s) (pullPacket t) := by
  have hopened := (h.frameOf (a := s.ctl.offset.toNat) le_rfl hp hs.2 ht.2).openBlock .packet .framebuf
    (4 * (s.cons.packetSize.toNat + 20)) 0
  rw [Machine.pullPacket, Machine.pullPacket, ← h.cons, ← h.pace, ← h.ctl]
  exact hopened.moveTo _ _

end SameSession
end

/-- A new session of the same inputs is the same session (46_pacing.md R191). -/
theorem SameInputs.sessionReset {s t : State} (h : SameInputs s t) :
    SameSession (sessionReset s) (sessionReset t) where
  toSameInputs := { h with }
  session := by rw [sessionReset_session, sessionReset_session, h.pace]
  fsm := rfl
  ctl := rfl
  out := rfl
  result := rfl
  frameLen := rfl
  frame := fun i hi => absurd hi (Nat.not_lt_zero i)
  errCode := rfl
  errInfo := rfl

/-! ### The relation through a command -/

/-- Two outcomes are the same session's: both complete in it, or both stop at one fault. -/
inductive SameOutcome : Result → Result → Prop
  | next {s t : State} (h : SameSession s t) : SameOutcome (.next s) (.next t)
  | fault (f : Fault) : SameOutcome (.fault f) (.fault f)

theorem SameOutcome.exists_next {r : Result} {s : State} (h : SameOutcome (.next s) r) :
    ∃ t, r = .next t ∧ SameSession s t := by
  cases h with
  | next h => exact ⟨_, rfl, h⟩

section
variable {s t : State}

theorem SameSession.whenAccepted (h : SameSession s t) {ok ok' : Bool} (hok : ok = ok') {body : State → Result}
    (hbody : SameOutcome (body s) (body t)) : SameOutcome (whenAccepted ok s body) (whenAccepted ok' t body) := by
  subst hok
  cases ok with
  | true => exact hbody
  | false => exact .next (h.raiseCmdErr .cmdSeq)

theorem SameSession.execCfgchk_same (h : SameSession s t) : SameOutcome (execCfgchk s) (execCfgchk t) := by
  refine h.whenAccepted (h.accepts_eq .cfgchk) ?_
  rw [h.cfgError_eq]
  split
  · exact .next (h.raiseFatal _ _)
  · exact .next { h with fsm := rfl }

theorem SameSession.execPull_same (h : SameSession s t) (hs : MemoriesCanonical s) (ht : MemoriesCanonical t) :
    SameOutcome (execPull s) (execPull t) := by
  refine h.whenAccepted (h.accepts_eq .pull) ?_
  have hframe : frameFits s = frameFits t := by rw [frameFits, frameFits, h.cons, h.params]
  have hsectors : sectorsFit s = sectorsFit t := by rw [sectorsFit, sectorsFit, h.pace, h.params]
  cases hf : t.fsm with
  | intro =>
    simp only [h.fsm, hf]
    exact .next h.pullIntro
  | packet =>
    simp only [h.fsm, hf, ← hframe]
    split
    · exact .next (h.pullPacket (of_decide_eq_true ‹_›) hs ht)
    · exact .fault _
  | pause =>
    simp only [h.fsm, hf, ← hsectors]
    split
    · exact .next h.pullPause
    · exact .fault _
  | outro =>
    simp only [h.fsm, hf]
    exact .next h.pullOutro
  | _ =>
    simp only [h.fsm, hf]
    exact .next (h.raiseCmdErr _)

/-- Every command but CRC and FRAME, whose operands `ARG0` and `ARG1` the relation leaves open. -/
theorem SameSession.exec_same (h : SameSession s t) {i : Instr} (hcrc : i ≠ .crc) (hframe : i ≠ .frame)
    (hs : MemoriesCanonical s) (ht : MemoriesCanonical t) : SameOutcome (exec i s) (exec i t) := by
  have hok := h.accepts_eq i
  cases i with
  | crc => exact absurd rfl hcrc
  | frame => exact absurd rfl hframe
  | nop => exact .next h
  | sreset => exact .next h.toSameInputs.sessionReset
  | cfgchk => exact h.execCfgchk_same
  | pull => exact h.execPull_same hs ht
  | run =>
    rw [exec, exec, execRun, execRun]
    exact h.whenAccepted hok (.next { h with ctl := by rw [h.pace], fsm := rfl })
  | scrld =>
    rw [exec, exec, execScrld, execScrld]
    exact h.whenAccepted hok (.next { h with session := by rw [h.session, h.pace] })
  | scrb b =>
    rw [exec, exec, execScrb, execScrb]
    exact h.whenAccepted hok (.next { h with session := by rw [h.session], result := by rw [h.session] })
  | mapb b =>
    rw [exec, exec, execMapb, execMapb]
    exact h.whenAccepted hok (.next { h with result := rfl })
  | mods y =>
    rw [exec, exec, execMods, execMods]
    exact h.whenAccepted hok (.next (h.openBlock ..))
  | modf =>
    rw [exec, exec, execModf, execModf]
    refine h.whenAccepted hok ?_
    rw [h.frameLen]
    exact .next (h.openBlock ..)
  | blank us =>
    rw [exec, exec, execBlank, execBlank]
    exact h.whenAccepted hok (.next (h.openSilence ..))

/-! ### The relation through a read -/

/-- A read of `OUT_DATA` that completes on one machine returns the same word on the other (44_modulator.md R157). -/
theorem SameSession.exists_readOutData (h : SameSession s t) {s' : State} (hs : readOutData s = .next s') :
    ∃ u v w, readOutData t = .next (Machine.reply w v) ∧ s' = Machine.reply w u ∧ SameSession u v ∧
      u.replies = s.replies ∧ v.replies = t.replies := by
  by_cases hd : drained s = true
  · rw [readOutData_drained hd] at hs
    cases hs
    exact ⟨_, _, _, readOutData_drained (h.drained_eq ▸ hd), rfl, h.raiseCmdErr _, rfl, rfl⟩
  rw [Bool.not_eq_true] at hd
  have hdt := h.drained_eq ▸ hd
  by_cases hn : s.session.sampleIndex = 0xFFFFFFFFFFFFFFFF#64
  · rw [readOutData_overflow hd hn] at hs
    cases hs
    exact ⟨_, _, _, readOutData_overflow hdt (h.session ▸ hn), rfl, h.raiseFatal _ _, rfl, rfl⟩
  · obtain ⟨y, hy, rfl⟩ := exists_symbol_of_readOutData hd hn hs
    have hyt : blockSym t t.out.pos = some y := by rw [← h.blockSym_eq, ← h.out, hy]
    have hword : sampleWord t y = sampleWord s y := by rw [sampleWord, sampleWord, h.session, h.cons]
    have hread := readOutData_sample hdt (h.session ▸ hn) hyt
    rw [popped, hword] at hread
    exact ⟨_, _, _, hread, rfl, h.advanceSample, rfl, rfl⟩

end

/-- Settles O60: the relation through SRESET, through each command and through a read. -/
theorem encodingDependsOnlyOnItsInputs : Obligations.EncodingDependsOnlyOnItsInputs := by
  refine ⟨fun s t s' t' h hs ht => ?sreset, fun i s t s' hcrc hframe h hs ht he => ?command, fun s t s' h hs => ?pop⟩
  case sreset =>
    cases hs
    cases ht
    exact h.sessionReset
  case command => exact (he ▸ h.exec_same hcrc hframe hs ht).exists_next
  case pop =>
    rw [perform_rd_outData] at hs
    obtain ⟨u, v, w, hread, rfl, huv, hu, hv⟩ := h.exists_readOutData hs
    exact ⟨_, w, (perform_rd_outData t).trans hread, huv.reply w, by rw [reply_replies, hu], by rw [reply_replies, hv]⟩

end Sys2Proof.Machine
end

section
/-! PROOFS. The errors (60_exceptions.md R230 to R237): every event of an invariant state answers a next state, what an
event that records an error does and no more, and what `ERROR` keeps until a new session. -/

namespace Sys2Proof.Machine

/-! ### Every event answers a next state -/

/-- A refusal answers a next state, so a guarded command is judged by what it does when accepted. -/
theorem exists_next_whenAccepted {ok : Bool} {s : State} {body : State → Result}
    (h : ok = true → ∃ t, body s = .next t) : ∃ t, whenAccepted ok s body = .next t := by
  cases ok with
  | true => exact h rfl
  | false => exact ⟨_, rfl⟩

section
variable {s : State}

/-- FRAME is accepted only under a valid configuration, whose packet the frame buffer holds (46_pacing.md R192). -/
theorem ConfigValidated.exists_next_frame (hs : ConfigValidated s) : ∃ t, exec .frame s = .next t := by
  rw [exec, execFrame]
  refine exists_next_whenAccepted fun hok => ?_
  obtain ⟨hdirect, -⟩ := Bool.and_eq_true_iff.1 hok
  have hlegal := hs.legalConfig (Fsm.ne_idle_of_acceptsDirect hdirect) (Fsm.ne_error_of_acceptsDirect hdirect)
  rw [frameFits_eq_true hlegal.packet_fits]
  split
  · exact ⟨_, rfl⟩
  · split
    · exact ⟨_, rfl⟩
    · exact ⟨_, if_pos rfl⟩

theorem Inv.exists_next_pull (hs : Inv s) : ∃ t, exec .pull s = .next t := by
  cases hok : accepts s .pull with
  | false => exact ⟨_, exec_of_not_accepts hok⟩
  | true =>
    obtain ⟨hrun, hd⟩ := Bool.and_eq_true_iff.1 hok
    obtain ⟨t, hpull, -⟩ := everyPullLeavesOneBlockFewer.2 s hs hrun (of_decide_eq_true hd)
    exact ⟨t, hpull⟩

theorem Inv.exists_next_exec (hs : Inv s) (i : Instr) : ∃ t, exec i s = .next t := by
  cases i with
  | nop | sreset => exact ⟨_, rfl⟩
  | frame => exact hs.validated.exists_next_frame
  | pull => exact hs.exists_next_pull
  | cfgchk =>
    rw [exec, execCfgchk]
    refine exists_next_whenAccepted fun _ => ?_
    split
    · exact ⟨_, rfl⟩
    · exact ⟨_, rfl⟩
  | crc =>
    rw [exec, execCrc]
    refine exists_next_whenAccepted fun _ => ?_
    split
    · exact ⟨_, rfl⟩
    · exact ⟨_, rfl⟩
  | run | scrld | scrb | mapb | mods | modf | blank =>
    simp only [exec, execRun, execScrld, execScrb, execMapb, execMods, execModf, execBlank]
    exact exists_next_whenAccepted fun _ => ⟨_, rfl⟩

/-- Of the registers only the output port asks for a symbol, and a sample still to be popped has one. -/
theorem BlockBacked.exists_next_hostReadReg (hs : BlockBacked s) (r : Reg) : ∃ t, hostReadReg r s = .next t := by
  cases r with
  | outData =>
    change ∃ t, readOutData s = .next t
    cases hd : drained s with
    | true => exact ⟨_, readOutData_drained hd⟩
    | false =>
      obtain ⟨y, hy⟩ := hs.exists_blockSym hd
      by_cases hn : s.session.sampleIndex = 0xFFFFFFFFFFFFFFFF#64
      · exact ⟨_, readOutData_overflow hd hn⟩
      · exact ⟨_, readOutData_sample hd hn hy⟩
  | outPeek =>
    change ∃ t, readOutPeek s = .next t
    cases hd : drained s with
    | true => exact ⟨_, if_pos hd⟩
    | false =>
      obtain ⟨y, hy⟩ := hs.exists_blockSym hd
      exact ⟨_, readOutPeek_sample hd hy⟩
  | _ => exact ⟨_, rfl⟩

theorem Inv.exists_next_hostRead (hs : Inv s) (offset : BitVec 12) : ∃ t, hostRead offset s = .next t := by
  unfold hostRead
  split
  · exact hs.backed.exists_next_hostReadReg _
  · exact ⟨_, rfl⟩

theorem Inv.exists_next_hostWrite (hs : Inv s) (offset : BitVec 12) (v : Word) :
    ∃ t, hostWrite offset v s = .next t := by
  unfold hostWrite
  split
  · unfold writeCommand
    split
    · exact hs.exists_next_exec _
    · exact ⟨_, rfl⟩
  · exact ⟨_, rfl⟩
  · exact ⟨_, rfl⟩

theorem Inv.exists_next_perform (hs : Inv s) (e : HostEvent) : ∃ t, perform e s = .next t := by
  cases e with
  | read width offset =>
    rw [perform]
    split
    · exact hs.exists_next_hostRead offset
    · exact ⟨_, rfl⟩
  | write width offset v =>
    rw [perform]
    split
    · exact hs.exists_next_hostWrite offset v
    · exact ⟨_, rfl⟩
  | hardReset image fb => exact ⟨_, rfl⟩

end

/-- Settles O58: the invariant does not read the list of events, and from it every event completes. -/
theorem stepNeverStops : Obligations.StepNeverStops := by
  intro s hs
  cases hp : s.pending with
  | nil => exact ⟨s, step_nil hp⟩
  | cons e rest =>
    rw [step_cons hp]
    exact (hs.of_lists rest s.replies).exists_next_perform e

/-! ### Writes -/

theorem freeWrite_fsm_error (r : Reg) (v : Word) (s : State) : (freeWrite r v s).fsm = .error ↔ s.fsm = .error := by
  cases r with
  | imgPtr => exact invalidate_fsm_error _
  | _ => exact Iff.rfl

theorem writeImage_fsm_error (bytes : List Byte) (s : State) :
    (writeImage bytes s).fsm = .error ↔ s.fsm = .error := by
  unfold writeImage
  split
  · exact Iff.rfl
  · split
    · exact Iff.rfl
    · exact invalidate_fsm_error _

/-- No write but a command's enters or leaves `ERROR` (60_exceptions.md R235). -/
theorem hostWriteReg_fsm_error (r : Reg) (v : Word) (s : State) :
    (hostWriteReg r v s).fsm = .error ↔ s.fsm = .error := by
  unfold hostWriteReg
  split
  case h_3 => exact freeWrite_fsm_error r v s
  case h_4 | h_5 =>
    split
    · exact Iff.rfl
    · exact invalidate_fsm_error _
  case h_6 => split <;> exact Iff.rfl
  case h_8 => split <;> exact writeImage_fsm_error _ s
  all_goals exact Iff.rfl

/-- A write is a command, a refusal, a register write or nothing (10_state.md R25, R26, 30_encoding.md R84). -/
theorem perform_write_cases {width : Width} {offset : BitVec 12} {v : Word} {s t : State}
    (h : perform (.write width offset v) s = .next t) :
    (∃ i, HostEvent.write width offset v = wr cmdOffset v ∧ decode v = .ok i ∧ exec i s = .next t) ∨
      (∃ c, t = raiseCmdErr c s) ∨ (∃ r, t = hostWriteReg r v s) ∨ t = s := by
  rw [perform] at h
  split at h
  · rw [width_of_wellFormed_write (width := width) ‹_›]
    unfold hostWrite at h
    split at h
    · rw [offset_of_regAt_cmd (offset := offset) ‹_›]
      unfold writeCommand at h
      split at h
      · exact .inl ⟨_, rfl, ‹_›, h⟩
      · cases h; exact .inr (.inl ⟨_, rfl⟩)
    · cases h; exact .inr (.inr (.inl ⟨_, rfl⟩))
    · cases h; exact .inr (.inr (.inr rfl))
  · cases h; exact .inr (.inl ⟨_, rfl⟩)

/-! ### Recording an error -/

/-- An access that raises an error returns 0 if it is a read (60_exceptions.md R233, R237). -/
def zeroReply (e : HostEvent) (s : State) : State :=
  match e with
  | .read _ _ => reply 0 s
  | .write _ _ _ | .hardReset _ _ => s

@[simp] theorem zeroReply_fsm (e : HostEvent) (s : State) : (zeroReply e s).fsm = s.fsm := by cases e <;> rfl

@[simp] theorem zeroReply_err (e : HostEvent) (s : State) : (zeroReply e s).err = s.err := by cases e <;> rfl

/-- What an event does to the two error records: it raises one error and does nothing else, or it does not enter `ERROR`
and records no command error. -/
inductive ErrorEffect (s : State) (e : HostEvent) : State → Prop
  | fatal (f : FatalErr) (w : Word) : ErrorEffect s e (zeroReply e (raiseFatal f w s))
  | cmdErr (c : CmdErr) : ErrorEffect s e (zeroReply e (raiseCmdErr c s))
  | quiet {t : State} (hf : t.fsm = .error → s.fsm = .error)
      (hc : t.err.cmdErrCode = s.err.cmdErrCode ∨ t.err.cmdErrCode = 0) : ErrorEffect s e t

section
variable {s t : State}

theorem CommandEffect.errorEffect {i : Instr} (h : CommandEffect s i t) (offset : BitVec 12) (v : Word) :
    ErrorEffect s (wr offset v) t := by
  cases h with
  | refused _ c => exact .cmdErr c
  | fatal _ f w => exact .fatal f w
  | sreset | ready | run | pullOutro => exact .quiet nofun (.inl rfl)
  | pullIntro | pullPacket | pullPause =>
    exact .quiet (fun herror => absurd herror (ite_ne_error nofun nofun)) (.inl rfl)
  | _ => exact .quiet id (.inl rfl)

theorem ReadEffect.errorEffect {r : Reg} (h : ReadEffect s r t) (offset : BitVec 12) :
    ErrorEffect s (rd offset) t := by
  cases h with
  | refused _ c => exact .cmdErr c
  | overflow => exact .fatal _ _
  | _ => exact .quiet id (.inl rfl)

theorem WriteEffect.errorEffect {r : Reg} {v : Word} (h : WriteEffect s r v t)
    (hf : t.fsm = .error → s.fsm = .error) (width : Width) (offset : BitVec 12) :
    ErrorEffect s (.write width offset v) t := by
  cases h with
  | refused _ _ c => exact .cmdErr c
  | errClr => exact .quiet hf (.inr rfl)
  | _ => exact .quiet hf (.inl rfl)

theorem perform_errorEffect {e : HostEvent} (h : perform e s = .next t) : ErrorEffect s e t := by
  cases e with
  | read width offset =>
    cases perform_performed h with
    | badRead => exact .cmdErr _
    | reservedRead => exact .quiet id (.inl rfl)
    | read _ he => exact he.errorEffect offset
  | write width offset v =>
    obtain ⟨i, hcmd, -, hexec⟩ | ⟨c, rfl⟩ | ⟨r, rfl⟩ | rfl := perform_write_cases h
    · rw [hcmd]
      exact (exec_commandEffect hexec).errorEffect cmdOffset v
    · exact .cmdErr c
    · exact (hostWriteReg_writeEffect r v s).errorEffect (hostWriteReg_fsm_error r v s).1 width offset
    · exact .quiet id (.inl rfl)
  | hardReset image fb =>
    cases h
    exact .quiet nofun (.inr rfl)

end

/-- The codes of 60_exceptions.md R230. -/
theorem FatalErr.code_mem (f : FatalErr) : f.code ∈
    [0x01#8, 0x02#8, 0x03#8, 0x04#8, 0x05#8, 0x06#8, 0x07#8, 0x08#8, 0x09#8, 0x0A#8, 0x0B#8, 0x10#8, 0x11#8] := by
  cases f <;> decide

/-- The codes of 60_exceptions.md R231. -/
theorem CmdErr.code_mem (c : CmdErr) : c.code ∈ [0x20#8, 0x21#8, 0x22#8, 0x23#8, 0x24#8, 0x25#8, 0x26#8] := by
  cases c <;> decide

/-- Settles O34: only a fatal error enters `ERROR`. -/
theorem fatalEntryChangesOnlyItsRecord : Obligations.FatalEntryChangesOnlyItsRecord := by
  intro e s t h hs ht
  cases perform_errorEffect h with
  | fatal f w => exact ⟨f.code, w, f.code_mem, by cases e <;> rfl⟩
  | cmdErr c => exact absurd (by simpa using ht) hs
  | quiet hf => exact absurd (hf ht) hs

/-- Settles O35: only a command error records a new non-zero code. -/
theorem commandErrorEntryChangesOnlyItsRecord : Obligations.CommandErrorEntryChangesOnlyItsRecord := by
  intro e s t h hnew hne
  cases perform_errorEffect h with
  | fatal f w => simp at hnew
  | cmdErr c => exact ⟨by simpa using c.code_mem, by cases e <;> rfl⟩
  | quiet _ hc => exact (hc.elim hnew hne).elim

/-! ### Staying in `ERROR` -/

/-- What `ERROR` keeps until a new session (60_exceptions.md R232, R235). -/
structure ErrorHeld (s t : State) : Prop where
  fsm : t.fsm = s.fsm
  errCode : t.err.errCode = s.err.errCode
  errInfo : t.err.errInfo = s.err.errInfo
  session : t.session = s.session
  out : t.out = s.out
  cons : t.cons = s.cons
  pace : t.pace = s.pace
  image : t.image = s.image

section
variable {s t : State}

theorem ErrorHeld.refl (s : State) : ErrorHeld s s := by constructor <;> rfl

theorem errorHeld_raiseCmdErr (c : CmdErr) (s : State) : ErrorHeld s (raiseCmdErr c s) := by constructor <;> rfl

/-- In `ERROR` every command but NOP and SRESET is refused (30_encoding.md R83). -/
theorem exec_errorHeld {i : Instr} (h : exec i s = .next t) (hf : s.fsm = .error) (hsreset : i ≠ .sreset) :
    ErrorHeld s t := by
  by_cases hnop : i = .nop
  · subst hnop
    cases h
    exact .refl s
  · rw [exec_of_not_accepts (accepts_of_error hf hnop hsreset)] at h
    cases h
    exact errorHeld_raiseCmdErr _ s

/-- The lock of 10_state.md R27 holds in `ERROR`, and the other writes reach none of what is kept. -/
theorem WriteEffect.errorHeld {r : Reg} {v : Word} (h : WriteEffect s r v t) (hlocked : locked s = true)
    (hf : t.fsm = s.fsm) : ErrorHeld s t := by
  cases h with
  | cons _ _ _ hopen | pace _ _ _ hopen | image _ _ _ _ hopen => simp [hlocked] at hopen
  | _ => exact ⟨hf, rfl, rfl, rfl, rfl, rfl, rfl, rfl⟩

theorem hostWriteReg_errorHeld (hf : s.fsm = .error) (r : Reg) (v : Word) : ErrorHeld s (hostWriteReg r v s) :=
  (hostWriteReg_writeEffect r v s).errorHeld (by simp [locked, hf])
    (((hostWriteReg_fsm_error r v s).2 hf).trans hf.symm)

/-- With the block drained a read of `OUT_DATA` only underflows, and no other read moves what is kept. -/
theorem hostReadReg_errorHeld {r : Reg} (h : hostReadReg r s = .next t) (hd : drained s = true) : ErrorHeld s t := by
  by_cases hout : r = .outData
  · subst hout
    rw [hostReadReg, readOutData_drained hd] at h
    cases h
    constructor <;> rfl
  · cases hostReadReg_readEffect h with
    | overflow | pop => exact absurd rfl hout
    | _ => constructor <;> rfl

theorem perform_errorHeld {e : HostEvent} (h : perform e s = .next t) (hf : s.fsm = .error) (hout : s.out = noBlock)
    (hsession : startsSession e = false) : ErrorHeld s t := by
  cases e with
  | read width offset =>
    cases perform_performed h with
    | badRead | reservedRead => constructor <;> rfl
    | read hr => exact hostReadReg_errorHeld ((perform_rd_reg hr).symm.trans h) (drained_noBlock hout)
  | write width offset v =>
    obtain ⟨i, hcmd, hw, hexec⟩ | ⟨c, rfl⟩ | ⟨r, rfl⟩ | rfl := perform_write_cases h
    · exact exec_errorHeld hexec hf (ne_sreset_of_startsSession hw (hcmd ▸ hsession))
    · exact errorHeld_raiseCmdErr c s
    · exact hostWriteReg_errorHeld hf r v
    · exact .refl _
  | hardReset image fb => cases hsession

end

/-- Settles O36: a step performs the next event, and none but a new session reaches what `ERROR` keeps. -/
theorem errorIsLeftOnlyByANewSession : Obligations.ErrorIsLeftOnlyByANewSession := by
  intro s t e rest hf hout hp h hsession
  rw [step_cons hp] at h
  obtain ⟨hfsm, hcode, hinfo, hkept, hblock, hcons, hpace, himage⟩ := perform_errorHeld h hf hout hsession
  exact ⟨hfsm.trans hf, hcode, hinfo, hkept, hblock, hcons, hpace, himage⟩

end Sys2Proof.Machine
end

section
/-! SUPPORT. Hardware reset (70_reset_and_hazards.md R270): what every reset leaves in common, what is read of it, and the
invariant it starts with. -/

namespace Sys2Proof.Machine

/-! ### The values after a hardware reset -/

/-- The machine as hardware reset leaves it, with any sizes, memory contents and host's lists (70_reset_and_hazards.md
R270; logs 1, 2, 3). -/
inductive AfterReset : State → Prop
  | mk (p : Config.Params) (image fb : Memory) (pending : Program) (replies : List Word) :
      AfterReset { State.powerOn p image fb with pending := pending, replies := replies }

theorem afterReset_reset : AfterReset State.reset := .mk _ _ _ _ _

theorem afterReset_of_perform {image fb : List Host.Cell} {s t : State}
    (h : perform (.hardReset image fb) s = .next t) : AfterReset t := by
  cases h
  exact .mk _ _ _ _ _

theorem AfterReset.out_eq {t : State} (h : AfterReset t) : t.out = noBlock := by cases h; rfl

theorem AfterReset.frameLen_eq {t : State} (h : AfterReset t) : t.frameLen = 0 := by cases h; rfl

theorem AfterReset.statusWord_eq {t : State} (h : AfterReset t) : statusWord t = 0 := by
  obtain ⟨p, image, fb, -, -⟩ := h
  exact statusBitsReadOtherState.2 p image fb

/-- With `BIT_RATE = 0` and `CARRIER_FREQ = 0` the two rate registers read 0 (10_state.md R51). -/
theorem AfterReset.rateRegs_eq {t : State} (h : AfterReset t) :
    symbolSamplesReg t.cons = 0 ∧ carrierPeriodReg t.cons = 0 := by
  cases h
  exact ⟨if_neg fun hbr => hbr.1 rfl, if_neg fun hfc => hfc.1 rfl⟩

theorem AfterReset.sect_eq {t : State} (h : AfterReset t) (i : Fin 128) : t.pace.sect[i] = 0 := by
  cases h
  exact Vector.getElem_replicate i.isLt

theorem readOutPeek_drained {s : State} (hd : drained s = true) : readOutPeek s = .next (reply 0 s) := if_pos hd

/-- At and beyond `FRAME_LEN` the frame port refuses (10_state.md R55). -/
theorem readFbByte_outOfRange {s : State} (h : s.frameLen.toNat ≤ s.fbPtr.toNat) :
    readFbByte s = reply 0 (raiseCmdErr .argRange s) := if_pos h

/-- With no frame held no byte of the frame buffer is read, wherever `FB_PTR` points. -/
theorem perform_rd_fbByte_of_no_frame {s : State} (h : s.frameLen = 0) :
    perform (rd 0x0F4#12) s = .next (reply 0 (raiseCmdErr .argRange s)) := by
  have hout : s.frameLen.toNat ≤ s.fbPtr.toNat := by rw [h]; exact Nat.zero_le _
  rw [perform_rd_fbByte, readFbByte_outOfRange hout]

/-- Settles O40: the registers computed from the state are read off what a reset leaves, the others are its fields. -/
theorem hardwareResetValues : Obligations.HardwareResetValues := by
  refine ⟨fun image fb s => ⟨_, rfl⟩, fun t ht => ?_⟩
  have hreset : AfterReset t := by
    obtain rfl | ⟨image, fb, s, h⟩ := ht
    · exact afterReset_reset
    · exact afterReset_of_perform h
  have hdrained : drained t = true := drained_noBlock hreset.out_eq
  have hid : perform (rd 0x000#12) t = .next (reply 0x51530107#32 t) := perform_rd_value .id rfl rfl rfl
  have hstatus : perform (rd 0x008#12) t = .next (reply 0 t) :=
    perform_rd_value .status rfl rfl hreset.statusWord_eq
  have hremain : outRemain t = 0 := of_decide_eq_true hdrained
  have hpeek : perform (rd 0x0CC#12) t = .next (reply 0 t) :=
    (perform_rd_outPeek t).trans (readOutPeek_drained hdrained)
  have hfb (p : Word) := perform_rd_fbByte_of_no_frame (s := { t with fbPtr := p }) hreset.frameLen_eq
  obtain ⟨hsamples, hperiod⟩ := hreset.rateRegs_eq
  have hsymbol : perform (rd 0x09C#12) t = .next (reply 0 t) := perform_rd_value .symbolSamples rfl rfl hsamples
  have hcarrier : perform (rd 0x0A0#12) t = .next (reply 0 t) := perform_rd_value .carrierPeriod rfl rfl hperiod
  have hsect := hreset.sect_eq
  cases hreset
  exact ⟨hid, rfl, hstatus, rfl, rfl, rfl, rfl, rfl, rfl, rfl, rfl, rfl, rfl, rfl, rfl, rfl, rfl, rfl, rfl, hsect, rfl,
    rfl, rfl, hremain, hpeek, rfl, hfb, rfl, rfl, hsymbol, hcarrier⟩

/-! ### The invariant after a hardware reset -/

/-- `IDLE`, no block, no frame, a new session and no error make every part of the invariant but the memories hold. -/
theorem inv_powerOn {p : Config.Params} {image fb : Memory} (himage : image.wf p.maxImage = true)
    (hfb : fb.wf (p.maxPacket + 20) = true) : Inv (State.powerOn p image fb) where
  memories := ⟨himage, hfb⟩
  sectors i _ := Vector.getElem_replicate i.isLt
  validated := configValidated_of_idle rfl
  frameHeld := Nat.zero_le _
  bounded := blockBounded_of_pos_eq_zero rfl
  backed := blockBacked_noBlock rfl
  phase := phaseLocked_of_zero rfl rfl
  aligned := symbolAligned_of_zero rfl rfl
  errors := ⟨iff_of_false nofun (not_not_intro rfl), iff_of_false nofun (not_not_intro rfl)⟩
  cursor := cursorOnTrack_of_not_running rfl

/-- Settles O52: an unwritten memory is canonical in every size. -/
theorem resetSatisfiesTheInvariant : Obligations.ResetSatisfiesTheInvariant :=
  ⟨fun _ _ _ himage hfb => inv_powerOn himage hfb, inv_powerOn rfl rfl⟩

end Sys2Proof.Machine
end
